-- ==== Sys2Proof/Word.lean ====
section
/-! DEFINITION. The word types of the machine: 64-bit registers and addresses (00_scope.md R7, R8), bytes,
32-bit instruction words (30_encoding.md R100) and the 5-bit register fields (R103). -/

namespace Sys2Proof

/-- A 64-bit register value or address; arithmetic wraps modulo 2^64 (R7, R8, R12). -/
abbrev Word := BitVec 64

/-- One byte of memory (20_memory.md R70). -/
abbrev Byte := BitVec 8

/-- A 32-bit instruction word `W` (30_encoding.md R100). -/
abbrev InsnWord := BitVec 32

/-- A 5-bit register field, naming one of the 32 general registers (10_state.md R35, R36). -/
abbrev Reg := BitVec 5

end Sys2Proof
end

