-- ==== Sys2Proof/Syntax.lean ====
section
/-! DEFINITION. The decoded instructions: one constructor per mnemonic of spec/opcode_table.json, in the table's
order, carrying the operand fields that 30_encoding.md gives its form. Constructor arguments stand in the order of the
fields from the most significant bit down; a bit the form does not use (30_encoding.md R134) is not an operand. -/

namespace Sys2Proof

/-- One decoded instruction. `reserved` and `passthrough` carry the whole word: the table's 14 reserved rows and 20
passthrough rows have no operands of their own (30_encoding.md R129, R131). -/
inductive Instr where
  /-- `tdi TO, RA, SI` (R535, D form). -/
  | tdi (toBits : BitVec 5) (ra : Reg) (si : BitVec 16)
  /-- `twi TO, RA, SI` (R533, D form). -/
  | twi (toBits : BitVec 5) (ra : Reg) (si : BitVec 16)
  /-- `mulli RT, RA, SI` (R357, D form). -/
  | mulli (rt ra : Reg) (si : BitVec 16)
  /-- `subfic RT, RA, SI` (R356, D form). -/
  | subfic (rt ra : Reg) (si : BitVec 16)
  /-- `cmpli BF, L, RA, UI` (R404, D form). -/
  | cmpli (bf : BitVec 3) (l : Bool) (ra : Reg) (ui : BitVec 16)
  /-- `cmpi BF, L, RA, SI` (R402, D form). -/
  | cmpi (bf : BitVec 3) (l : Bool) (ra : Reg) (si : BitVec 16)
  /-- `addic RT, RA, SI` (R354, D form). -/
  | addic (rt ra : Reg) (si : BitVec 16)
  /-- `addic. RT, RA, SI` (R355, D form). -/
  | addicRc (rt ra : Reg) (si : BitVec 16)
  /-- `li RT, SI` (R351, D form). -/
  | li (rt : Reg) (si : BitVec 16)
  /-- `addi RT, RA, SI` (R350, D form). -/
  | addi (rt ra : Reg) (si : BitVec 16)
  /-- `lis RT, SI` (R353, D form). -/
  | lis (rt : Reg) (si : BitVec 16)
  /-- `addis RT, RA, SI` (R352, D form). -/
  | addis (rt ra : Reg) (si : BitVec 16)
  /-- `bc BO, BI, target` (R219, B form). -/
  | bc (bo bi : BitVec 5) (bd : BitVec 14)
  /-- `bca BO, BI, target` (R220, B form). -/
  | bca (bo bi : BitVec 5) (bd : BitVec 14)
  /-- `bcl BO, BI, target` (R221, B form). -/
  | bcl (bo bi : BitVec 5) (bd : BitVec 14)
  /-- `bcla BO, BI, target` (R222, B form). -/
  | bcla (bo bi : BitVec 5) (bd : BitVec 14)
  /-- `sc` (R530, SC form). -/
  | sc (lev : BitVec 7)
  /-- `b target` (R215, I form). -/
  | b (li : BitVec 24)
  /-- `ba target` (R216, I form). -/
  | ba (li : BitVec 24)
  /-- `bl target` (R217, I form). -/
  | bl (li : BitVec 24)
  /-- `bla target` (R218, I form). -/
  | bla (li : BitVec 24)
  /-- `rlwimi RA, RS, SH, MB, ME` (R453, M form). -/
  | rlwimi (rs ra : Reg) (sh mb me : BitVec 5) (rc : Bool)
  /-- `rlwinm RA, RS, SH, MB, ME` (R451, M form). -/
  | rlwinm (rs ra : Reg) (sh mb me : BitVec 5) (rc : Bool)
  /-- `rlwnm RA, RS, RB, MB, ME` (R452, M form). -/
  | rlwnm (rs ra rb : Reg) (mb me : BitVec 5) (rc : Bool)
  /-- `nop` (R408, D form). -/
  | nop
  /-- `ori RA, RS, UI` (R407, D form). -/
  | ori (rs ra : Reg) (ui : BitVec 16)
  /-- `oris RA, RS, UI` (R409, D form). -/
  | oris (rs ra : Reg) (ui : BitVec 16)
  /-- `xori RA, RS, UI` (R410, D form). -/
  | xori (rs ra : Reg) (ui : BitVec 16)
  /-- `xoris RA, RS, UI` (R411, D form). -/
  | xoris (rs ra : Reg) (ui : BitVec 16)
  /-- `andi. RA, RS, UI` (R405, D form). -/
  | andiRc (rs ra : Reg) (ui : BitVec 16)
  /-- `andis. RA, RS, UI` (R406, D form). -/
  | andisRc (rs ra : Reg) (ui : BitVec 16)
  /-- `lwz RT, D(RA)` (R302, D form). -/
  | lwz (rt ra : Reg) (d : BitVec 16)
  /-- `lwzu RT, D(RA)` (R303, D form). -/
  | lwzu (rt ra : Reg) (d : BitVec 16)
  /-- `lbz RT, D(RA)` (R290, D form). -/
  | lbz (rt ra : Reg) (d : BitVec 16)
  /-- `lbzu RT, D(RA)` (R291, D form). -/
  | lbzu (rt ra : Reg) (d : BitVec 16)
  /-- `stw RS, D(RA)` (R328, D form). -/
  | stw (rs ra : Reg) (d : BitVec 16)
  /-- `stwu RS, D(RA)` (R329, D form). -/
  | stwu (rs ra : Reg) (d : BitVec 16)
  /-- `stb RS, D(RA)` (R320, D form). -/
  | stb (rs ra : Reg) (d : BitVec 16)
  /-- `stbu RS, D(RA)` (R321, D form). -/
  | stbu (rs ra : Reg) (d : BitVec 16)
  /-- `lhz RT, D(RA)` (R294, D form). -/
  | lhz (rt ra : Reg) (d : BitVec 16)
  /-- `lhzu RT, D(RA)` (R295, D form). -/
  | lhzu (rt ra : Reg) (d : BitVec 16)
  /-- `lha RT, D(RA)` (R298, D form). -/
  | lha (rt ra : Reg) (d : BitVec 16)
  /-- `lhau RT, D(RA)` (R299, D form). -/
  | lhau (rt ra : Reg) (d : BitVec 16)
  /-- `sth RS, D(RA)` (R324, D form). -/
  | sth (rs ra : Reg) (d : BitVec 16)
  /-- `sthu RS, D(RA)` (R325, D form). -/
  | sthu (rs ra : Reg) (d : BitVec 16)
  /-- `mcrf BF, BFA` (R259, XL form). -/
  | mcrf (bf bfa : BitVec 3)
  /-- `bclr BO, BI, BH` (R223, XL form). -/
  | bclr (bo bi : BitVec 5) (bh : BitVec 2)
  /-- `bclrl BO, BI, BH` (R224, XL form). -/
  | bclrl (bo bi : BitVec 5) (bh : BitVec 2)
  /-- `rfid` (R527, XL form). -/
  | rfid
  /-- `crnor BT, BA, BB` (R255, XL form). -/
  | crnor (bt ba bb : BitVec 5)
  /-- `crandc BT, BA, BB` (R257, XL form). -/
  | crandc (bt ba bb : BitVec 5)
  /-- `isync` (R512, XL form). -/
  | isync
  /-- `crxor BT, BA, BB` (R254, XL form). -/
  | crxor (bt ba bb : BitVec 5)
  /-- `crnand BT, BA, BB` (R252, XL form). -/
  | crnand (bt ba bb : BitVec 5)
  /-- `crand BT, BA, BB` (R251, XL form). -/
  | crand (bt ba bb : BitVec 5)
  /-- `hrfid` (R528, XL form). -/
  | hrfid
  /-- `creqv BT, BA, BB` (R256, XL form). -/
  | creqv (bt ba bb : BitVec 5)
  /-- `crorc BT, BA, BB` (R258, XL form). -/
  | crorc (bt ba bb : BitVec 5)
  /-- `cror BT, BA, BB` (R253, XL form). -/
  | cror (bt ba bb : BitVec 5)
  /-- `bcctr BO, BI, BH` (R225, XL form). -/
  | bcctr (bo bi : BitVec 5) (bh : BitVec 2)
  /-- `bcctrl BO, BI, BH` (R226, XL form). -/
  | bcctrl (bo bi : BitVec 5) (bh : BitVec 2)
  /-- `rldicl RA, RS, SH, MB` (R454, MD form). -/
  | rldicl (rs ra : Reg) (sh mb : BitVec 6) (rc : Bool)
  /-- `rldicr RA, RS, SH, ME` (R455, MD form). -/
  | rldicr (rs ra : Reg) (sh me : BitVec 6) (rc : Bool)
  /-- `rldic RA, RS, SH, MB` (R456, MD form). -/
  | rldic (rs ra : Reg) (sh mb : BitVec 6) (rc : Bool)
  /-- `rldimi RA, RS, SH, MB` (R457, MD form). -/
  | rldimi (rs ra : Reg) (sh mb : BitVec 6) (rc : Bool)
  /-- `rldcl RA, RS, RB, MB` (R458, MDS form). -/
  | rldcl (rs ra rb : Reg) (mb : BitVec 6) (rc : Bool)
  /-- `rldcr RA, RS, RB, ME` (R459, MDS form). -/
  | rldcr (rs ra rb : Reg) (me : BitVec 6) (rc : Bool)
  /-- `cmp BF, L, RA, RB` (R401, X form). -/
  | cmp (bf : BitVec 3) (l : Bool) (ra rb : Reg)
  /-- `tw TO, RA, RB` (R532, X form). -/
  | tw (toBits : BitVec 5) (ra rb : Reg)
  /-- `subfc RT, RA, RB` (R364, XO form). -/
  | subfc (rt ra rb : Reg) (oe rc : Bool)
  /-- `mulhdu RT, RA, RB` (R372, X form). -/
  | mulhdu (rt ra rb : Reg) (rc : Bool)
  /-- `addc RT, RA, RB` (R359, XO form). -/
  | addc (rt ra rb : Reg) (oe rc : Bool)
  /-- `mulhwu RT, RA, RB` (R374, X form). -/
  | mulhwu (rt ra rb : Reg) (rc : Bool)
  /-- `mfcr RT` (R260, XFX form). -/
  | mfcr (rt : Reg)
  /-- `mfocrf RT, FXM` (R261, XFX form). -/
  | mfocrf (rt : Reg) (fxm : BitVec 8)
  /-- `lwarx RT, RA, RB` (R520, X form). -/
  | lwarx (rt ra rb : Reg)
  /-- `ldx RT, RA, RB` (R311, X form). -/
  | ldx (rt ra rb : Reg)
  /-- `lwzx RT, RA, RB` (R304, X form). -/
  | lwzx (rt ra rb : Reg)
  /-- `slw RA, RS, RB` (R460, X form). -/
  | slw (rs ra rb : Reg) (rc : Bool)
  /-- `cntlzw RA, RS` (R424, X form). -/
  | cntlzw (rs ra : Reg) (rc : Bool)
  /-- `sld RA, RS, RB` (R464, X form). -/
  | sld (rs ra rb : Reg) (rc : Bool)
  /-- `and RA, RS, RB` (R412, X form). -/
  | and (rs ra rb : Reg) (rc : Bool)
  /-- `cmpl BF, L, RA, RB` (R403, X form). -/
  | cmpl (bf : BitVec 3) (l : Bool) (ra rb : Reg)
  /-- `subf RT, RA, RB` (R363, XO form). -/
  | subf (rt ra rb : Reg) (oe rc : Bool)
  /-- `ldux RT, RA, RB` (R312, X form). -/
  | ldux (rt ra rb : Reg)
  /-- `dcbst RA, RB` (R515, X form). -/
  | dcbst (ra rb : Reg)
  /-- `lwzux RT, RA, RB` (R305, X form). -/
  | lwzux (rt ra rb : Reg)
  /-- `cntlzd RA, RS` (R425, X form). -/
  | cntlzd (rs ra : Reg) (rc : Bool)
  /-- `andc RA, RS, RB` (R413, X form). -/
  | andc (rs ra rb : Reg) (rc : Bool)
  /-- `td TO, RA, RB` (R534, X form). -/
  | td (toBits : BitVec 5) (ra rb : Reg)
  /-- `mulhd RT, RA, RB` (R371, X form). -/
  | mulhd (rt ra rb : Reg) (rc : Bool)
  /-- `mulhw RT, RA, RB` (R373, X form). -/
  | mulhw (rt ra rb : Reg) (rc : Bool)
  /-- `mfmsr RT` (R524, X form). -/
  | mfmsr (rt : Reg)
  /-- `ldarx RT, RA, RB` (R521, X form). -/
  | ldarx (rt ra rb : Reg)
  /-- `dcbf RA, RB` (R516, X form). -/
  | dcbf (ra rb : Reg)
  /-- `lbzx RT, RA, RB` (R292, X form). -/
  | lbzx (rt ra rb : Reg)
  /-- `neg RT, RA` (R368, XO form). -/
  | neg (rt ra : Reg) (oe rc : Bool)
  /-- `lbzux RT, RA, RB` (R293, X form). -/
  | lbzux (rt ra rb : Reg)
  /-- `nor RA, RS, RB` (R419, X form). -/
  | nor (rs ra rb : Reg) (rc : Bool)
  /-- `subfe RT, RA, RB` (R365, XO form). -/
  | subfe (rt ra rb : Reg) (oe rc : Bool)
  /-- `adde RT, RA, RB` (R360, XO form). -/
  | adde (rt ra rb : Reg) (oe rc : Bool)
  /-- `mtcrf FXM, RS` (R262, XFX form). -/
  | mtcrf (rs : Reg) (fxm : BitVec 8)
  /-- `mtocrf FXM, RS` (R263, XFX form). -/
  | mtocrf (rs : Reg) (fxm : BitVec 8)
  /-- `mtmsr RS` (R525, X form). -/
  | mtmsr (rs : Reg)
  /-- `stdx RS, RA, RB` (R334, X form). -/
  | stdx (rs ra rb : Reg)
  /-- `stwcx. RS, RA, RB` (R522, X form). -/
  | stwcx (rs ra rb : Reg)
  /-- `stwx RS, RA, RB` (R330, X form). -/
  | stwx (rs ra rb : Reg)
  /-- `mtmsrd RS` (R526, X form). -/
  | mtmsrd (rs : Reg)
  /-- `stdux RS, RA, RB` (R335, X form). -/
  | stdux (rs ra rb : Reg)
  /-- `stwux RS, RA, RB` (R331, X form). -/
  | stwux (rs ra rb : Reg)
  /-- `subfze RT, RA` (R367, XO form). -/
  | subfze (rt ra : Reg) (oe rc : Bool)
  /-- `addze RT, RA` (R362, XO form). -/
  | addze (rt ra : Reg) (oe rc : Bool)
  /-- `stdcx. RS, RA, RB` (R523, X form). -/
  | stdcx (rs ra rb : Reg)
  /-- `stbx RS, RA, RB` (R322, X form). -/
  | stbx (rs ra rb : Reg)
  /-- `subfme RT, RA` (R366, XO form). -/
  | subfme (rt ra : Reg) (oe rc : Bool)
  /-- `mulld RT, RA, RB` (R369, XO form). -/
  | mulld (rt ra rb : Reg) (oe rc : Bool)
  /-- `addme RT, RA` (R361, XO form). -/
  | addme (rt ra : Reg) (oe rc : Bool)
  /-- `mullw RT, RA, RB` (R370, XO form). -/
  | mullw (rt ra rb : Reg) (oe rc : Bool)
  /-- `dcbtst RA, RB` (R514, X form). -/
  | dcbtst (ra rb : Reg)
  /-- `stbux RS, RA, RB` (R323, X form). -/
  | stbux (rs ra rb : Reg)
  /-- `add RT, RA, RB` (R358, XO form). -/
  | add (rt ra rb : Reg) (oe rc : Bool)
  /-- `tlbiel RB` (R538, X form). -/
  | tlbiel (rb : Reg)
  /-- `dcbt RA, RB` (R513, X form). -/
  | dcbt (ra rb : Reg)
  /-- `lhzx RT, RA, RB` (R296, X form). -/
  | lhzx (rt ra rb : Reg)
  /-- `eqv RA, RS, RB` (R420, X form). -/
  | eqv (rs ra rb : Reg) (rc : Bool)
  /-- `tlbie RB` (R519, X form). -/
  | tlbie (rb : Reg)
  /-- `lhzux RT, RA, RB` (R297, X form). -/
  | lhzux (rt ra rb : Reg)
  /-- `xor RA, RS, RB` (R417, X form). -/
  | xor (rs ra rb : Reg) (rc : Bool)
  /-- `mfspr RT, SPR` (R502, XFX form). -/
  | mfspr (rt : Reg) (spr : BitVec 10)
  /-- `lwax RT, RA, RB` (R307, X form). -/
  | lwax (rt ra rb : Reg)
  /-- `lhax RT, RA, RB` (R300, X form). -/
  | lhax (rt ra rb : Reg)
  /-- `tlbia` (R539, X form). -/
  | tlbia
  /-- `mftb RT, TBR` (R529, XFX form). -/
  | mftb (rt : Reg) (tbr : BitVec 10)
  /-- `lwaux RT, RA, RB` (R308, X form). -/
  | lwaux (rt ra rb : Reg)
  /-- `lhaux RT, RA, RB` (R301, X form). -/
  | lhaux (rt ra rb : Reg)
  /-- `slbmte RS, RB` (R541, X form). -/
  | slbmte (rs rb : Reg)
  /-- `sthx RS, RA, RB` (R326, X form). -/
  | sthx (rs ra rb : Reg)
  /-- `orc RA, RS, RB` (R416, X form). -/
  | orc (rs ra rb : Reg) (rc : Bool)
  /-- `sradi RA, RS, SH` (R467, XS form). -/
  | sradi (rs ra : Reg) (sh : BitVec 6) (rc : Bool)
  /-- `slbie RB` (R542, X form). -/
  | slbie (rb : Reg)
  /-- `sthux RS, RA, RB` (R327, X form). -/
  | sthux (rs ra rb : Reg)
  /-- `mr RA, RS` (R415, X form). -/
  | mr (rs ra : Reg) (rc : Bool)
  /-- `or RA, RS, RB` (R414, X form). -/
  | or (rs ra rb : Reg) (rc : Bool)
  /-- `divdu RT, RA, RB` (R376, XO form). -/
  | divdu (rt ra rb : Reg) (oe rc : Bool)
  /-- `divwu RT, RA, RB` (R378, XO form). -/
  | divwu (rt ra rb : Reg) (oe rc : Bool)
  /-- `mtspr SPR, RS` (R503, XFX form). -/
  | mtspr (rs : Reg) (spr : BitVec 10)
  /-- `nand RA, RS, RB` (R418, X form). -/
  | nand (rs ra rb : Reg) (rc : Bool)
  /-- `divd RT, RA, RB` (R375, XO form). -/
  | divd (rt ra rb : Reg) (oe rc : Bool)
  /-- `divw RT, RA, RB` (R377, XO form). -/
  | divw (rt ra rb : Reg) (oe rc : Bool)
  /-- `slbia` (R543, X form). -/
  | slbia
  /-- `lwbrx RT, RA, RB` (R314, X form). -/
  | lwbrx (rt ra rb : Reg)
  /-- `srw RA, RS, RB` (R461, X form). -/
  | srw (rs ra rb : Reg) (rc : Bool)
  /-- `srd RA, RS, RB` (R465, X form). -/
  | srd (rs ra rb : Reg) (rc : Bool)
  /-- `tlbsync` (R540, X form). -/
  | tlbsync
  /-- `sync L` (R510, X form). -/
  | sync (l : BitVec 2)
  /-- `stwbrx RS, RA, RB` (R337, X form). -/
  | stwbrx (rs ra rb : Reg)
  /-- `lhbrx RT, RA, RB` (R313, X form). -/
  | lhbrx (rt ra rb : Reg)
  /-- `sraw RA, RS, RB` (R462, X form). -/
  | sraw (rs ra rb : Reg) (rc : Bool)
  /-- `srad RA, RS, RB` (R466, X form). -/
  | srad (rs ra rb : Reg) (rc : Bool)
  /-- `srawi RA, RS, SH` (R463, X form). -/
  | srawi (rs ra : Reg) (sh : BitVec 5) (rc : Bool)
  /-- `slbmfev RT, RB` (R544, X form). -/
  | slbmfev (rt rb : Reg)
  /-- `eieio` (R511, X form). -/
  | eieio
  /-- `slbmfee RT, RB` (R545, X form). -/
  | slbmfee (rt rb : Reg)
  /-- `sthbrx RS, RA, RB` (R336, X form). -/
  | sthbrx (rs ra rb : Reg)
  /-- `extsh RA, RS` (R422, X form). -/
  | extsh (rs ra : Reg) (rc : Bool)
  /-- `extsb RA, RS` (R421, X form). -/
  | extsb (rs ra : Reg) (rc : Bool)
  /-- `icbi RA, RB` (R517, X form). -/
  | icbi (ra rb : Reg)
  /-- `extsw RA, RS` (R423, X form). -/
  | extsw (rs ra : Reg) (rc : Bool)
  /-- `dcbz RA, RB` (R518, X form). -/
  | dcbz (ra rb : Reg)
  /-- `ld RT, DS(RA)` (R309, DS form). -/
  | ld (rt ra : Reg) (ds : BitVec 14)
  /-- `ldu RT, DS(RA)` (R310, DS form). -/
  | ldu (rt ra : Reg) (ds : BitVec 14)
  /-- `lwa RT, DS(RA)` (R306, DS form). -/
  | lwa (rt ra : Reg) (ds : BitVec 14)
  /-- `std RS, DS(RA)` (R332, DS form). -/
  | std (rs ra : Reg) (ds : BitVec 14)
  /-- `stdu RS, DS(RA)` (R333, DS form). -/
  | stdu (rs ra : Reg) (ds : BitVec 14)
  /-- A word of a reserved dispatch entry; it never decodes successfully (R129). -/
  | reserved (w : InsnWord)
  /-- A valid word with no modelled semantics (R131). -/
  | passthrough (w : InsnWord)
deriving DecidableEq, Repr

end Sys2Proof
end

