-- ==== Sys2Proof/WellFormed.lean ====
section
/-! DEFINITION. Which instructions a word can encode: the update-form validity rule (30_encoding.md R130), the
operand values that another conditional variant takes (R132), and the words that reach a passthrough entry (R131). -/

namespace Sys2Proof

/-- 30_encoding.md R130: an update-form load fails decode if `RA = 0` or `RA = RT`, an update-form store if `RA = 0`;
every other instruction is valid. -/
def Instr.updateFormValid : Instr → Bool
  | .lwzu rt ra _ | .lbzu rt ra _ | .lhzu rt ra _ | .lhau rt ra _ | .ldux rt ra _ | .lwzux rt ra _
  | .lbzux rt ra _ | .lhzux rt ra _ | .lwaux rt ra _ | .lhaux rt ra _ | .ldu rt ra _ => ra != 0#5 && ra != rt
  | .stwu _ ra _ | .stbu _ ra _ | .sthu _ ra _ | .stdux _ ra _ | .stwux _ ra _ | .stbux _ ra _ | .sthux _ ra _
  | .stdu _ ra _ => ra != 0#5
  | .tdi _ _ _ | .twi _ _ _ | .mulli _ _ _ | .subfic _ _ _ | .cmpli _ _ _ _ | .cmpi _ _ _ _ | .addic _ _ _
  | .addicRc _ _ _ | .li _ _ | .addi _ _ _ | .lis _ _ | .addis _ _ _ | .bc _ _ _ | .bca _ _ _ | .bcl _ _ _
  | .bcla _ _ _ | .sc _ | .b _ | .ba _ | .bl _ | .bla _ | .rlwimi _ _ _ _ _ _ | .rlwinm _ _ _ _ _ _
  | .rlwnm _ _ _ _ _ _ | .nop | .ori _ _ _ | .oris _ _ _ | .xori _ _ _ | .xoris _ _ _ | .andiRc _ _ _
  | .andisRc _ _ _ | .lwz _ _ _ | .lbz _ _ _ | .stw _ _ _ | .stb _ _ _ | .lhz _ _ _ | .lha _ _ _ | .sth _ _ _
  | .mcrf _ _ | .bclr _ _ _ | .bclrl _ _ _ | .rfid | .crnor _ _ _ | .crandc _ _ _ | .isync | .crxor _ _ _
  | .crnand _ _ _ | .crand _ _ _ | .hrfid | .creqv _ _ _ | .crorc _ _ _ | .cror _ _ _ | .bcctr _ _ _
  | .bcctrl _ _ _ | .rldicl _ _ _ _ _ | .rldicr _ _ _ _ _ | .rldic _ _ _ _ _ | .rldimi _ _ _ _ _
  | .rldcl _ _ _ _ _ | .rldcr _ _ _ _ _ | .cmp _ _ _ _ | .tw _ _ _ | .subfc _ _ _ _ _ | .mulhdu _ _ _ _
  | .addc _ _ _ _ _ | .mulhwu _ _ _ _ | .mfcr _ | .mfocrf _ _ | .lwarx _ _ _ | .ldx _ _ _ | .lwzx _ _ _
  | .slw _ _ _ _ | .cntlzw _ _ _ | .sld _ _ _ _ | .and _ _ _ _ | .cmpl _ _ _ _ | .subf _ _ _ _ _ | .dcbst _ _
  | .cntlzd _ _ _ | .andc _ _ _ _ | .td _ _ _ | .mulhd _ _ _ _ | .mulhw _ _ _ _ | .mfmsr _ | .ldarx _ _ _
  | .dcbf _ _ | .lbzx _ _ _ | .neg _ _ _ _ | .nor _ _ _ _ | .subfe _ _ _ _ _ | .adde _ _ _ _ _ | .mtcrf _ _
  | .mtocrf _ _ | .mtmsr _ | .stdx _ _ _ | .stwcx _ _ _ | .stwx _ _ _ | .mtmsrd _ | .subfze _ _ _ _
  | .addze _ _ _ _ | .stdcx _ _ _ | .stbx _ _ _ | .subfme _ _ _ _ | .mulld _ _ _ _ _ | .addme _ _ _ _
  | .mullw _ _ _ _ _ | .dcbtst _ _ | .add _ _ _ _ _ | .tlbiel _ | .dcbt _ _ | .lhzx _ _ _ | .eqv _ _ _ _
  | .tlbie _ | .xor _ _ _ _ | .mfspr _ _ | .lwax _ _ _ | .lhax _ _ _ | .tlbia | .mftb _ _ | .slbmte _ _
  | .sthx _ _ _ | .orc _ _ _ _ | .sradi _ _ _ _ | .slbie _ | .mr _ _ _ | .or _ _ _ _ | .divdu _ _ _ _ _
  | .divwu _ _ _ _ _ | .mtspr _ _ | .nand _ _ _ _ | .divd _ _ _ _ _ | .divw _ _ _ _ _ | .slbia | .lwbrx _ _ _
  | .srw _ _ _ _ | .srd _ _ _ _ | .tlbsync | .sync _ | .stwbrx _ _ _ | .lhbrx _ _ _ | .sraw _ _ _ _
  | .srad _ _ _ _ | .srawi _ _ _ _ | .slbmfev _ _ | .eieio | .slbmfee _ _ | .sthbrx _ _ _ | .extsh _ _ _
  | .extsb _ _ _ | .icbi _ _ | .extsw _ _ _ | .dcbz _ _ | .ld _ _ _ | .lwa _ _ _ | .std _ _ _ | .reserved _
  | .passthrough _ => true

/-- The primary opcodes whose entry is passthrough (30_encoding.md R122). -/
def passthroughPrimaries : List Nat :=
  [4, 46, 47, 48, 49, 50, 51, 52, 53, 54, 55, 56, 57, 59, 60, 61, 63]

/-- The keys `W[10:1]` that group 19 defines (30_encoding.md R123). -/
def definedKeys19 : List Nat :=
   [0, 16, 18, 33, 129, 150, 193, 225, 257, 274, 289, 417, 449, 528]

/-- The keys `W[10:1]` that the first table of group 31 defines (30_encoding.md R125). -/
def definedKeys31 : List Nat :=
   [0, 4, 9, 11, 19, 20, 21, 23, 24, 26, 27, 28, 32, 53, 54, 55, 58, 60, 68, 73,
    75, 83, 84, 86, 87, 119, 124, 144, 146, 149, 150, 151, 178, 181, 183, 214, 215, 246, 247, 274,
    278, 279, 284, 306, 311, 316, 339, 341, 343, 370, 371, 373, 375, 402, 407, 412, 434, 439, 444, 467,
    476, 498, 534, 536, 539, 566, 598, 662, 790, 792, 794, 824, 826, 827, 851, 854, 915, 918, 922, 954,
    982, 986, 1014]

/-- The keys `W[9:1]` that the second table of group 31 defines (30_encoding.md R126). -/
def definedKeys31XO : List Nat :=
   [8, 10, 40, 104, 136, 138, 200, 202, 232, 233, 234, 235, 266, 457, 459, 489, 491]

/-- 30_encoding.md R131: the primary entry is passthrough, or the word is in group 19, 31 or 62 and its key reaches the
decoder-defined default. -/
def isPassthroughWord (w : InsnWord) : Bool :=
  let op := (w.extractLsb' 26 6).toNat
  let key10 := (w.extractLsb' 1 10).toNat
  let key9 := (w.extractLsb' 1 9).toNat
  passthroughPrimaries.contains op
    || (op == 19 && !definedKeys19.contains key10)
    || (op == 31 && !definedKeys31.contains key10 && !definedKeys31XO.contains key9)
    || (op == 62 && (w.extractLsb' 0 2).toNat == 2)

/-- The operand values at which a word of this encoding is this instruction and not the other conditional variant
(30_encoding.md R132); `reserved` is never well formed (R129). -/
def Instr.variantValid : Instr → Bool
  | .addi _ ra _ | .addis _ ra _ => ra != 0#5
  | .ori rs ra ui => !(rs == 0#5 && ra == 0#5 && ui == 0#16)
  | .or rs _ rb _ => rs != rb
  | .reserved _ => false
  | .passthrough w => isPassthroughWord w
  | .tdi _ _ _ | .twi _ _ _ | .mulli _ _ _ | .subfic _ _ _ | .cmpli _ _ _ _ | .cmpi _ _ _ _ | .addic _ _ _
  | .addicRc _ _ _ | .li _ _ | .lis _ _ | .bc _ _ _ | .bca _ _ _ | .bcl _ _ _ | .bcla _ _ _ | .sc _ | .b _
  | .ba _ | .bl _ | .bla _ | .rlwimi _ _ _ _ _ _ | .rlwinm _ _ _ _ _ _ | .rlwnm _ _ _ _ _ _ | .nop
  | .oris _ _ _ | .xori _ _ _ | .xoris _ _ _ | .andiRc _ _ _ | .andisRc _ _ _ | .lwz _ _ _ | .lwzu _ _ _
  | .lbz _ _ _ | .lbzu _ _ _ | .stw _ _ _ | .stwu _ _ _ | .stb _ _ _ | .stbu _ _ _ | .lhz _ _ _ | .lhzu _ _ _
  | .lha _ _ _ | .lhau _ _ _ | .sth _ _ _ | .sthu _ _ _ | .mcrf _ _ | .bclr _ _ _ | .bclrl _ _ _ | .rfid
  | .crnor _ _ _ | .crandc _ _ _ | .isync | .crxor _ _ _ | .crnand _ _ _ | .crand _ _ _ | .hrfid
  | .creqv _ _ _ | .crorc _ _ _ | .cror _ _ _ | .bcctr _ _ _ | .bcctrl _ _ _ | .rldicl _ _ _ _ _
  | .rldicr _ _ _ _ _ | .rldic _ _ _ _ _ | .rldimi _ _ _ _ _ | .rldcl _ _ _ _ _ | .rldcr _ _ _ _ _
  | .cmp _ _ _ _ | .tw _ _ _ | .subfc _ _ _ _ _ | .mulhdu _ _ _ _ | .addc _ _ _ _ _ | .mulhwu _ _ _ _
  | .mfcr _ | .mfocrf _ _ | .lwarx _ _ _ | .ldx _ _ _ | .lwzx _ _ _ | .slw _ _ _ _ | .cntlzw _ _ _
  | .sld _ _ _ _ | .and _ _ _ _ | .cmpl _ _ _ _ | .subf _ _ _ _ _ | .ldux _ _ _ | .dcbst _ _ | .lwzux _ _ _
  | .cntlzd _ _ _ | .andc _ _ _ _ | .td _ _ _ | .mulhd _ _ _ _ | .mulhw _ _ _ _ | .mfmsr _ | .ldarx _ _ _
  | .dcbf _ _ | .lbzx _ _ _ | .neg _ _ _ _ | .lbzux _ _ _ | .nor _ _ _ _ | .subfe _ _ _ _ _ | .adde _ _ _ _ _
  | .mtcrf _ _ | .mtocrf _ _ | .mtmsr _ | .stdx _ _ _ | .stwcx _ _ _ | .stwx _ _ _ | .mtmsrd _ | .stdux _ _ _
  | .stwux _ _ _ | .subfze _ _ _ _ | .addze _ _ _ _ | .stdcx _ _ _ | .stbx _ _ _ | .subfme _ _ _ _
  | .mulld _ _ _ _ _ | .addme _ _ _ _ | .mullw _ _ _ _ _ | .dcbtst _ _ | .stbux _ _ _ | .add _ _ _ _ _
  | .tlbiel _ | .dcbt _ _ | .lhzx _ _ _ | .eqv _ _ _ _ | .tlbie _ | .lhzux _ _ _ | .xor _ _ _ _ | .mfspr _ _
  | .lwax _ _ _ | .lhax _ _ _ | .tlbia | .mftb _ _ | .lwaux _ _ _ | .lhaux _ _ _ | .slbmte _ _ | .sthx _ _ _
  | .orc _ _ _ _ | .sradi _ _ _ _ | .slbie _ | .sthux _ _ _ | .mr _ _ _ | .divdu _ _ _ _ _ | .divwu _ _ _ _ _
  | .mtspr _ _ | .nand _ _ _ _ | .divd _ _ _ _ _ | .divw _ _ _ _ _ | .slbia | .lwbrx _ _ _ | .srw _ _ _ _
  | .srd _ _ _ _ | .tlbsync | .sync _ | .stwbrx _ _ _ | .lhbrx _ _ _ | .sraw _ _ _ _ | .srad _ _ _ _
  | .srawi _ _ _ _ | .slbmfev _ _ | .eieio | .slbmfee _ _ | .sthbrx _ _ _ | .extsh _ _ _ | .extsb _ _ _
  | .icbi _ _ | .extsw _ _ _ | .dcbz _ _ | .ld _ _ _ | .ldu _ _ _ | .lwa _ _ _ | .std _ _ _ | .stdu _ _ _ => true

/-- The instructions that some word decodes to. -/
def Instr.wellFormed (i : Instr) : Bool := i.updateFormValid && i.variantValid

end Sys2Proof
end

