-- ==== Sys2Proof/Decode.lean ====
section
/-! DEFINITION. The decoder: field extraction (30_encoding.md R100 to R116), extension and mask arithmetic (R117 to
R119), the dispatch tree (R120 to R132) and, after it, the encoder written from the same form layouts. -/

namespace Sys2Proof

/-! ### Fields (R103 to R116). Bit numbers are LSB-0. -/

/-- OPCD, `W[31:26]` (R103). -/
def fieldOPCD (w : InsnWord) : BitVec 6 := w.extractLsb' 26 6
/-- RT, RS, TO, BO or BT, `W[25:21]` (R103). -/
def fieldRT (w : InsnWord) : BitVec 5 := w.extractLsb' 21 5
/-- RA, BI or BA, `W[20:16]` (R103). -/
def fieldRA (w : InsnWord) : BitVec 5 := w.extractLsb' 16 5
/-- RB, BB or the 5-bit SH, `W[15:11]` (R103). -/
def fieldRB (w : InsnWord) : BitVec 5 := w.extractLsb' 11 5
/-- BF, `W[25:23]` (R103). -/
def fieldBF (w : InsnWord) : BitVec 3 := w.extractLsb' 23 3
/-- BFA, `W[20:18]` (R103). -/
def fieldBFA (w : InsnWord) : BitVec 3 := w.extractLsb' 18 3
/-- L of the compares, `W[21]` (R103). -/
def fieldL (w : InsnWord) : Bool := w.getLsbD 21
/-- L of sync, `W[22:21]` (R111). -/
def fieldSyncL (w : InsnWord) : BitVec 2 := w.extractLsb' 21 2
/-- Rc, `W[0]` (R103). -/
def fieldRc (w : InsnWord) : Bool := w.getLsbD 0
/-- LK, `W[0]` (R103). -/
def fieldLK (w : InsnWord) : Bool := w.getLsbD 0
/-- AA, `W[1]` (R106, R107). -/
def fieldAA (w : InsnWord) : Bool := w.getLsbD 1
/-- D, SI or UI, `W[15:0]` (R104). -/
def fieldImm (w : InsnWord) : BitVec 16 := w.extractLsb' 0 16
/-- DS, `W[15:2]` (R105). -/
def fieldDS (w : InsnWord) : BitVec 14 := w.extractLsb' 2 14
/-- The 2-bit XO of the DS form, `W[1:0]` (R105). -/
def fieldXO2 (w : InsnWord) : BitVec 2 := w.extractLsb' 0 2
/-- LI, `W[25:2]` (R106). -/
def fieldLI (w : InsnWord) : BitVec 24 := w.extractLsb' 2 24
/-- BD, `W[15:2]` (R107). -/
def fieldBD (w : InsnWord) : BitVec 14 := w.extractLsb' 2 14
/-- MB of the M form, `W[10:6]` (R108). -/
def fieldMB (w : InsnWord) : BitVec 5 := w.extractLsb' 6 5
/-- ME of the M form, `W[5:1]` (R108). -/
def fieldME (w : InsnWord) : BitVec 5 := w.extractLsb' 1 5
/-- The 6-bit shift `W[1] || W[15:11]` of the MD and XS forms (R109, R115). -/
def fieldSh6 (w : InsnWord) : BitVec 6 := w.extractLsb' 1 1 ++ w.extractLsb' 11 5
/-- The 6-bit mask bound `W[5] || W[10:6]` of the MD and MDS forms (R109, R110). -/
def fieldMbe6 (w : InsnWord) : BitVec 6 := w.extractLsb' 5 1 ++ w.extractLsb' 6 5
/-- The 4-bit key of group 30, `W[4:1]` (R110, R124). -/
def fieldXO4 (w : InsnWord) : BitVec 4 := w.extractLsb' 1 4
/-- The 10-bit key of groups 19 and 31, `W[10:1]` (R111, R112). -/
def fieldXO10 (w : InsnWord) : BitVec 10 := w.extractLsb' 1 10
/-- The 9-bit key of group 31's second table, `W[9:1]` (R114). -/
def fieldXO9 (w : InsnWord) : BitVec 9 := w.extractLsb' 1 9
/-- OE, `W[10]` (R114). -/
def fieldOE (w : InsnWord) : Bool := w.getLsbD 10
/-- BH, `W[12:11]` (R112). -/
def fieldBH (w : InsnWord) : BitVec 2 := w.extractLsb' 11 2
/-- The assembled SPR or TBR number `W[15:11] || W[20:16]` (R113). -/
def fieldSPR (w : InsnWord) : BitVec 10 := w.extractLsb' 11 5 ++ w.extractLsb' 16 5
/-- `W[20]`: the one-field form (1) or the all-field form (0) of the CR moves (R113). -/
def fieldOne (w : InsnWord) : Bool := w.getLsbD 20
/-- FXM, `W[19:12]` (R113). -/
def fieldFXM (w : InsnWord) : BitVec 8 := w.extractLsb' 12 8
/-- LEV, `W[11:5]` (R116). -/
def fieldLEV (w : InsnWord) : BitVec 7 := w.extractLsb' 5 7

/-! ### Extension and mask arithmetic -/

/-- `signExtend(width, value)` at destination width `dest` (R117): when bit width-1 of the value is 1, OR in ones at
bits dest-1..width; otherwise the value unchanged. -/
def signExtendField {dest : Nat} (width : Nat) (value : BitVec dest) : BitVec dest :=
  if value.getLsbD (width - 1) then value ||| (BitVec.allOnes dest <<< width) else value

/-- `sext_N(v)`: an N-bit pattern extended to 64 bits (00_scope.md R14), by R117. -/
def sext {n : Nat} (v : BitVec n) : Word := signExtendField n (v.setWidth 64)

/-- `zext_N(v)`: an N-bit pattern extended to 64 bits with zeros (00_scope.md R14). -/
def zext {n : Nat} (v : BitVec n) : Word := v.setWidth 64

/-- SI shifted (R118): `sext_32(SI || 0^16)`. -/
def siShifted (si : BitVec 16) : Word := sext (si ++ 0#16)
/-- UI shifted (R118): `zext_32(UI || 0^16)`. -/
def uiShifted (ui : BitVec 16) : Word := zext (ui ++ 0#16)
/-- The DS displacement (R118, R133): `sext_16(DS || 0b00)`. -/
def dispDS (ds : BitVec 14) : Word := sext (ds ++ 0#2)
/-- The LI displacement (R118): `sext_26(LI || 0b00)`. -/
def dispLI (li : BitVec 24) : Word := sext (li ++ 0#2)
/-- The BD displacement (R118): `sext_16(BD || 0b00)`. -/
def dispBD (bd : BitVec 14) : Word := sext (bd ++ 0#2)

/-- `rotateMask64(mb, me)`, written `MASK(mb, me)` (R119): ones at IBM bits mb..me, or, when mb > me, at mb..63 and
0..me. IBM bit i is LSB-0 bit 63-i. -/
def rotateMask (mb me : Nat) : Word :=
  let fromBegin := BitVec.allOnes 64 >>> mb
  let toEnd := BitVec.allOnes 64 <<< (63 - me)
  if mb ≤ me then fromBegin &&& toEnd else fromBegin ||| toEnd

/-! ### The dispatch tree -/

/-- Why a decode fails: the three causes of 10_state.md R34, and no other. -/
inductive DecodeFailure where
  /-- A reserved primary opcode (R122, R129). -/
  | reservedPrimary
  /-- A reserved secondary key within an implemented group (R124, R127, R128, R129). -/
  | reservedSecondary
  /-- An update form with an invalid base or destination (R130). -/
  | invalidUpdateForm
deriving DecidableEq, Repr

/-- The decode verdict (10_state.md R34): success with the decoded instruction, or failure. -/
inductive Verdict where
  | success (i : Instr)
  | failure (cause : DecodeFailure)
deriving DecidableEq, Repr

/-- The nested groups (R122); group 31 holds two tables. -/
inductive Group where
  | g19
  | g30
  | g31
  | g58
  | g62
deriving DecidableEq, Repr

/-- A dispatch entry (R121). A fixed instruction carries its emission as a function of the word's fields. -/
inductive Entry where
  | reserved (cause : DecodeFailure)
  | fixed (mk : InsnWord → Instr)
  | variant (cond : InsnWord → Bool) (first fallback : InsnWord → Instr)
  | group (g : Group)
  | passthrough

/-- OPCD 18: b, ba, bl, bla by AA and LK (R122). -/
def branchI (w : InsnWord) : Instr :=
  match fieldAA w, fieldLK w with
  | false, false => .b (fieldLI w)
  | true, false => .ba (fieldLI w)
  | false, true => .bl (fieldLI w)
  | true, true => .bla (fieldLI w)

/-- OPCD 16: bc, bca, bcl, bcla by AA and LK (R122). -/
def condBranchB (w : InsnWord) : Instr :=
  match fieldAA w, fieldLK w with
  | false, false => .bc (fieldRT w) (fieldRA w) (fieldBD w)
  | true, false => .bca (fieldRT w) (fieldRA w) (fieldBD w)
  | false, true => .bcl (fieldRT w) (fieldRA w) (fieldBD w)
  | true, true => .bcla (fieldRT w) (fieldRA w) (fieldBD w)

/-- Group 19, key 16: bclr or bclrl by LK (R123). -/
def branchLR (w : InsnWord) : Instr :=
  if fieldLK w then .bclrl (fieldRT w) (fieldRA w) (fieldBH w) else .bclr (fieldRT w) (fieldRA w) (fieldBH w)

/-- Group 19, key 528: bcctr or bcctrl by LK (R123). -/
def branchCTR (w : InsnWord) : Instr :=
  if fieldLK w then .bcctrl (fieldRT w) (fieldRA w) (fieldBH w) else .bcctr (fieldRT w) (fieldRA w) (fieldBH w)

/-- The top-level table, primary opcodes 0 to 31 (R122). -/
def topTableLow : List (Nat × Entry) :=
  [ (0, .reserved .reservedPrimary),
    (1, .reserved .reservedPrimary),
    (2, .fixed fun w => .tdi (fieldRT w) (fieldRA w) (fieldImm w)),
    (3, .fixed fun w => .twi (fieldRT w) (fieldRA w) (fieldImm w)),
    (4, .passthrough),
    (5, .reserved .reservedPrimary),
    (6, .reserved .reservedPrimary),
    (7, .fixed fun w => .mulli (fieldRT w) (fieldRA w) (fieldImm w)),
    (8, .fixed fun w => .subfic (fieldRT w) (fieldRA w) (fieldImm w)),
    (9, .reserved .reservedPrimary),
    (10, .fixed fun w => .cmpli (fieldBF w) (fieldL w) (fieldRA w) (fieldImm w)),
    (11, .fixed fun w => .cmpi (fieldBF w) (fieldL w) (fieldRA w) (fieldImm w)),
    (12, .fixed fun w => .addic (fieldRT w) (fieldRA w) (fieldImm w)),
    (13, .fixed fun w => .addicRc (fieldRT w) (fieldRA w) (fieldImm w)),
    (14, .variant (fun w => fieldRA w == 0#5) (fun w => .li (fieldRT w) (fieldImm w))
      (fun w => .addi (fieldRT w) (fieldRA w) (fieldImm w))),
    (15, .variant (fun w => fieldRA w == 0#5) (fun w => .lis (fieldRT w) (fieldImm w))
      (fun w => .addis (fieldRT w) (fieldRA w) (fieldImm w))),
    (16, .fixed condBranchB),
    (17, .fixed fun w => .sc (fieldLEV w)),
    (18, .fixed branchI),
    (19, .group .g19),
    (20, .fixed fun w => .rlwimi (fieldRT w) (fieldRA w) (fieldRB w) (fieldMB w) (fieldME w) (fieldRc w)),
    (21, .fixed fun w => .rlwinm (fieldRT w) (fieldRA w) (fieldRB w) (fieldMB w) (fieldME w) (fieldRc w)),
    (22, .reserved .reservedPrimary),
    (23, .fixed fun w => .rlwnm (fieldRT w) (fieldRA w) (fieldRB w) (fieldMB w) (fieldME w) (fieldRc w)),
    (24, .variant (fun w => fieldRT w == 0#5 && fieldRA w == 0#5 && fieldImm w == 0#16) (fun _ => .nop)
      (fun w => .ori (fieldRT w) (fieldRA w) (fieldImm w))),
    (25, .fixed fun w => .oris (fieldRT w) (fieldRA w) (fieldImm w)),
    (26, .fixed fun w => .xori (fieldRT w) (fieldRA w) (fieldImm w)),
    (27, .fixed fun w => .xoris (fieldRT w) (fieldRA w) (fieldImm w)),
    (28, .fixed fun w => .andiRc (fieldRT w) (fieldRA w) (fieldImm w)),
    (29, .fixed fun w => .andisRc (fieldRT w) (fieldRA w) (fieldImm w)),
    (30, .group .g30),
    (31, .group .g31) ]

/-- The top-level table, primary opcodes 32 to 63 (R122). -/
def topTableHigh : List (Nat × Entry) :=
  [ (32, .fixed fun w => .lwz (fieldRT w) (fieldRA w) (fieldImm w)),
    (33, .fixed fun w => .lwzu (fieldRT w) (fieldRA w) (fieldImm w)),
    (34, .fixed fun w => .lbz (fieldRT w) (fieldRA w) (fieldImm w)),
    (35, .fixed fun w => .lbzu (fieldRT w) (fieldRA w) (fieldImm w)),
    (36, .fixed fun w => .stw (fieldRT w) (fieldRA w) (fieldImm w)),
    (37, .fixed fun w => .stwu (fieldRT w) (fieldRA w) (fieldImm w)),
    (38, .fixed fun w => .stb (fieldRT w) (fieldRA w) (fieldImm w)),
    (39, .fixed fun w => .stbu (fieldRT w) (fieldRA w) (fieldImm w)),
    (40, .fixed fun w => .lhz (fieldRT w) (fieldRA w) (fieldImm w)),
    (41, .fixed fun w => .lhzu (fieldRT w) (fieldRA w) (fieldImm w)),
    (42, .fixed fun w => .lha (fieldRT w) (fieldRA w) (fieldImm w)),
    (43, .fixed fun w => .lhau (fieldRT w) (fieldRA w) (fieldImm w)),
    (44, .fixed fun w => .sth (fieldRT w) (fieldRA w) (fieldImm w)),
    (45, .fixed fun w => .sthu (fieldRT w) (fieldRA w) (fieldImm w)),
    (46, .passthrough),
    (47, .passthrough),
    (48, .passthrough),
    (49, .passthrough),
    (50, .passthrough),
    (51, .passthrough),
    (52, .passthrough),
    (53, .passthrough),
    (54, .passthrough),
    (55, .passthrough),
    (56, .passthrough),
    (57, .passthrough),
    (58, .group .g58),
    (59, .passthrough),
    (60, .passthrough),
    (61, .passthrough),
    (62, .group .g62),
    (63, .passthrough) ]

/-- Group 19, key `W[10:1]` (R123). -/
def table19 : List (Nat × Entry) :=
  [ (0, .fixed fun w => .mcrf (fieldBF w) (fieldBFA w)),
    (16, .fixed branchLR),
    (18, .fixed fun _ => .rfid),
    (33, .fixed fun w => .crnor (fieldRT w) (fieldRA w) (fieldRB w)),
    (129, .fixed fun w => .crandc (fieldRT w) (fieldRA w) (fieldRB w)),
    (150, .fixed fun _ => .isync),
    (193, .fixed fun w => .crxor (fieldRT w) (fieldRA w) (fieldRB w)),
    (225, .fixed fun w => .crnand (fieldRT w) (fieldRA w) (fieldRB w)),
    (257, .fixed fun w => .crand (fieldRT w) (fieldRA w) (fieldRB w)),
    (274, .fixed fun _ => .hrfid),
    (289, .fixed fun w => .creqv (fieldRT w) (fieldRA w) (fieldRB w)),
    (417, .fixed fun w => .crorc (fieldRT w) (fieldRA w) (fieldRB w)),
    (449, .fixed fun w => .cror (fieldRT w) (fieldRA w) (fieldRB w)),
    (528, .fixed branchCTR) ]

/-- Group 30, key `W[4:1]` (R124). -/
def table30 : List (Nat × Entry) :=
  [ (0, .fixed fun w => .rldicl (fieldRT w) (fieldRA w) (fieldSh6 w) (fieldMbe6 w) (fieldRc w)),
    (1, .fixed fun w => .rldicl (fieldRT w) (fieldRA w) (fieldSh6 w) (fieldMbe6 w) (fieldRc w)),
    (2, .fixed fun w => .rldicr (fieldRT w) (fieldRA w) (fieldSh6 w) (fieldMbe6 w) (fieldRc w)),
    (3, .fixed fun w => .rldicr (fieldRT w) (fieldRA w) (fieldSh6 w) (fieldMbe6 w) (fieldRc w)),
    (4, .fixed fun w => .rldic (fieldRT w) (fieldRA w) (fieldSh6 w) (fieldMbe6 w) (fieldRc w)),
    (5, .fixed fun w => .rldic (fieldRT w) (fieldRA w) (fieldSh6 w) (fieldMbe6 w) (fieldRc w)),
    (6, .fixed fun w => .rldimi (fieldRT w) (fieldRA w) (fieldSh6 w) (fieldMbe6 w) (fieldRc w)),
    (7, .fixed fun w => .rldimi (fieldRT w) (fieldRA w) (fieldSh6 w) (fieldMbe6 w) (fieldRc w)),
    (8, .fixed fun w => .rldcl (fieldRT w) (fieldRA w) (fieldRB w) (fieldMbe6 w) (fieldRc w)),
    (9, .fixed fun w => .rldcr (fieldRT w) (fieldRA w) (fieldRB w) (fieldMbe6 w) (fieldRc w)),
    (10, .reserved .reservedSecondary),
    (11, .reserved .reservedSecondary),
    (12, .reserved .reservedSecondary),
    (13, .reserved .reservedSecondary),
    (14, .reserved .reservedSecondary),
    (15, .reserved .reservedSecondary) ]

/-- Group 31, first table, key `W[10:1]`, keys below 128 (R125). -/
def table31a : List (Nat × Entry) :=
  [ (0, .fixed fun w => .cmp (fieldBF w) (fieldL w) (fieldRA w) (fieldRB w)),
    (4, .fixed fun w => .tw (fieldRT w) (fieldRA w) (fieldRB w)),
    (9, .fixed fun w => .mulhdu (fieldRT w) (fieldRA w) (fieldRB w) (fieldRc w)),
    (11, .fixed fun w => .mulhwu (fieldRT w) (fieldRA w) (fieldRB w) (fieldRc w)),
    (19, .variant (fun w => !fieldOne w) (fun w => .mfcr (fieldRT w))
      (fun w => .mfocrf (fieldRT w) (fieldFXM w))),
    (20, .fixed fun w => .lwarx (fieldRT w) (fieldRA w) (fieldRB w)),
    (21, .fixed fun w => .ldx (fieldRT w) (fieldRA w) (fieldRB w)),
    (23, .fixed fun w => .lwzx (fieldRT w) (fieldRA w) (fieldRB w)),
    (24, .fixed fun w => .slw (fieldRT w) (fieldRA w) (fieldRB w) (fieldRc w)),
    (26, .fixed fun w => .cntlzw (fieldRT w) (fieldRA w) (fieldRc w)),
    (27, .fixed fun w => .sld (fieldRT w) (fieldRA w) (fieldRB w) (fieldRc w)),
    (28, .fixed fun w => .and (fieldRT w) (fieldRA w) (fieldRB w) (fieldRc w)),
    (32, .fixed fun w => .cmpl (fieldBF w) (fieldL w) (fieldRA w) (fieldRB w)),
    (53, .fixed fun w => .ldux (fieldRT w) (fieldRA w) (fieldRB w)),
    (54, .fixed fun w => .dcbst (fieldRA w) (fieldRB w)),
    (55, .fixed fun w => .lwzux (fieldRT w) (fieldRA w) (fieldRB w)),
    (58, .fixed fun w => .cntlzd (fieldRT w) (fieldRA w) (fieldRc w)),
    (60, .fixed fun w => .andc (fieldRT w) (fieldRA w) (fieldRB w) (fieldRc w)),
    (68, .fixed fun w => .td (fieldRT w) (fieldRA w) (fieldRB w)),
    (73, .fixed fun w => .mulhd (fieldRT w) (fieldRA w) (fieldRB w) (fieldRc w)),
    (75, .fixed fun w => .mulhw (fieldRT w) (fieldRA w) (fieldRB w) (fieldRc w)),
    (83, .fixed fun w => .mfmsr (fieldRT w)),
    (84, .fixed fun w => .ldarx (fieldRT w) (fieldRA w) (fieldRB w)),
    (86, .fixed fun w => .dcbf (fieldRA w) (fieldRB w)),
    (87, .fixed fun w => .lbzx (fieldRT w) (fieldRA w) (fieldRB w)),
    (119, .fixed fun w => .lbzux (fieldRT w) (fieldRA w) (fieldRB w)),
    (124, .fixed fun w => .nor (fieldRT w) (fieldRA w) (fieldRB w) (fieldRc w)) ]

/-- Group 31, first table, keys 128 to 399 (R125). -/
def table31b : List (Nat × Entry) :=
  [ (144, .variant (fun w => !fieldOne w) (fun w => .mtcrf (fieldRT w) (fieldFXM w))
      (fun w => .mtocrf (fieldRT w) (fieldFXM w))),
    (146, .fixed fun w => .mtmsr (fieldRT w)),
    (149, .fixed fun w => .stdx (fieldRT w) (fieldRA w) (fieldRB w)),
    (150, .fixed fun w => .stwcx (fieldRT w) (fieldRA w) (fieldRB w)),
    (151, .fixed fun w => .stwx (fieldRT w) (fieldRA w) (fieldRB w)),
    (178, .fixed fun w => .mtmsrd (fieldRT w)),
    (181, .fixed fun w => .stdux (fieldRT w) (fieldRA w) (fieldRB w)),
    (183, .fixed fun w => .stwux (fieldRT w) (fieldRA w) (fieldRB w)),
    (214, .fixed fun w => .stdcx (fieldRT w) (fieldRA w) (fieldRB w)),
    (215, .fixed fun w => .stbx (fieldRT w) (fieldRA w) (fieldRB w)),
    (246, .fixed fun w => .dcbtst (fieldRA w) (fieldRB w)),
    (247, .fixed fun w => .stbux (fieldRT w) (fieldRA w) (fieldRB w)),
    (274, .fixed fun w => .tlbiel (fieldRB w)),
    (278, .fixed fun w => .dcbt (fieldRA w) (fieldRB w)),
    (279, .fixed fun w => .lhzx (fieldRT w) (fieldRA w) (fieldRB w)),
    (284, .fixed fun w => .eqv (fieldRT w) (fieldRA w) (fieldRB w) (fieldRc w)),
    (306, .fixed fun w => .tlbie (fieldRB w)),
    (311, .fixed fun w => .lhzux (fieldRT w) (fieldRA w) (fieldRB w)),
    (316, .fixed fun w => .xor (fieldRT w) (fieldRA w) (fieldRB w) (fieldRc w)),
    (339, .fixed fun w => .mfspr (fieldRT w) (fieldSPR w)),
    (341, .fixed fun w => .lwax (fieldRT w) (fieldRA w) (fieldRB w)),
    (343, .fixed fun w => .lhax (fieldRT w) (fieldRA w) (fieldRB w)),
    (370, .fixed fun _ => .tlbia),
    (371, .fixed fun w => .mftb (fieldRT w) (fieldSPR w)),
    (373, .fixed fun w => .lwaux (fieldRT w) (fieldRA w) (fieldRB w)),
    (375, .fixed fun w => .lhaux (fieldRT w) (fieldRA w) (fieldRB w)) ]

/-- Group 31, first table, keys from 400 (R125). -/
def table31c : List (Nat × Entry) :=
  [ (402, .fixed fun w => .slbmte (fieldRT w) (fieldRB w)),
    (407, .fixed fun w => .sthx (fieldRT w) (fieldRA w) (fieldRB w)),
    (412, .fixed fun w => .orc (fieldRT w) (fieldRA w) (fieldRB w) (fieldRc w)),
    (434, .fixed fun w => .slbie (fieldRB w)),
    (439, .fixed fun w => .sthux (fieldRT w) (fieldRA w) (fieldRB w)),
    (444, .variant (fun w => fieldRT w == fieldRB w) (fun w => .mr (fieldRT w) (fieldRA w) (fieldRc w))
      (fun w => .or (fieldRT w) (fieldRA w) (fieldRB w) (fieldRc w))),
    (467, .fixed fun w => .mtspr (fieldRT w) (fieldSPR w)),
    (476, .fixed fun w => .nand (fieldRT w) (fieldRA w) (fieldRB w) (fieldRc w)),
    (498, .fixed fun _ => .slbia),
    (534, .fixed fun w => .lwbrx (fieldRT w) (fieldRA w) (fieldRB w)),
    (536, .fixed fun w => .srw (fieldRT w) (fieldRA w) (fieldRB w) (fieldRc w)),
    (539, .fixed fun w => .srd (fieldRT w) (fieldRA w) (fieldRB w) (fieldRc w)),
    (566, .fixed fun _ => .tlbsync),
    (598, .fixed fun w => .sync (fieldSyncL w)),
    (662, .fixed fun w => .stwbrx (fieldRT w) (fieldRA w) (fieldRB w)),
    (790, .fixed fun w => .lhbrx (fieldRT w) (fieldRA w) (fieldRB w)),
    (792, .fixed fun w => .sraw (fieldRT w) (fieldRA w) (fieldRB w) (fieldRc w)),
    (794, .fixed fun w => .srad (fieldRT w) (fieldRA w) (fieldRB w) (fieldRc w)),
    (824, .fixed fun w => .srawi (fieldRT w) (fieldRA w) (fieldRB w) (fieldRc w)),
    (826, .fixed fun w => .sradi (fieldRT w) (fieldRA w) (fieldSh6 w) (fieldRc w)),
    (827, .fixed fun w => .sradi (fieldRT w) (fieldRA w) (fieldSh6 w) (fieldRc w)),
    (851, .fixed fun w => .slbmfev (fieldRT w) (fieldRB w)),
    (854, .fixed fun _ => .eieio),
    (915, .fixed fun w => .slbmfee (fieldRT w) (fieldRB w)),
    (918, .fixed fun w => .sthbrx (fieldRT w) (fieldRA w) (fieldRB w)),
    (922, .fixed fun w => .extsh (fieldRT w) (fieldRA w) (fieldRc w)),
    (954, .fixed fun w => .extsb (fieldRT w) (fieldRA w) (fieldRc w)),
    (982, .fixed fun w => .icbi (fieldRA w) (fieldRB w)),
    (986, .fixed fun w => .extsw (fieldRT w) (fieldRA w) (fieldRc w)),
    (1014, .fixed fun w => .dcbz (fieldRA w) (fieldRB w)) ]

/-- Group 31, second table, key `W[9:1]` (R126). -/
def table31XO : List (Nat × Entry) :=
  [ (8, .fixed fun w => .subfc (fieldRT w) (fieldRA w) (fieldRB w) (fieldOE w) (fieldRc w)),
    (10, .fixed fun w => .addc (fieldRT w) (fieldRA w) (fieldRB w) (fieldOE w) (fieldRc w)),
    (40, .fixed fun w => .subf (fieldRT w) (fieldRA w) (fieldRB w) (fieldOE w) (fieldRc w)),
    (104, .fixed fun w => .neg (fieldRT w) (fieldRA w) (fieldOE w) (fieldRc w)),
    (136, .fixed fun w => .subfe (fieldRT w) (fieldRA w) (fieldRB w) (fieldOE w) (fieldRc w)),
    (138, .fixed fun w => .adde (fieldRT w) (fieldRA w) (fieldRB w) (fieldOE w) (fieldRc w)),
    (200, .fixed fun w => .subfze (fieldRT w) (fieldRA w) (fieldOE w) (fieldRc w)),
    (202, .fixed fun w => .addze (fieldRT w) (fieldRA w) (fieldOE w) (fieldRc w)),
    (232, .fixed fun w => .subfme (fieldRT w) (fieldRA w) (fieldOE w) (fieldRc w)),
    (233, .fixed fun w => .mulld (fieldRT w) (fieldRA w) (fieldRB w) (fieldOE w) (fieldRc w)),
    (234, .fixed fun w => .addme (fieldRT w) (fieldRA w) (fieldOE w) (fieldRc w)),
    (235, .fixed fun w => .mullw (fieldRT w) (fieldRA w) (fieldRB w) (fieldOE w) (fieldRc w)),
    (266, .fixed fun w => .add (fieldRT w) (fieldRA w) (fieldRB w) (fieldOE w) (fieldRc w)),
    (457, .fixed fun w => .divdu (fieldRT w) (fieldRA w) (fieldRB w) (fieldOE w) (fieldRc w)),
    (459, .fixed fun w => .divwu (fieldRT w) (fieldRA w) (fieldRB w) (fieldOE w) (fieldRc w)),
    (489, .fixed fun w => .divd (fieldRT w) (fieldRA w) (fieldRB w) (fieldOE w) (fieldRc w)),
    (491, .fixed fun w => .divw (fieldRT w) (fieldRA w) (fieldRB w) (fieldOE w) (fieldRc w)) ]

/-- Group 58, key `W[1:0]` (R127). -/
def table58 : List (Nat × Entry) :=
  [ (0, .fixed fun w => .ld (fieldRT w) (fieldRA w) (fieldDS w)),
    (1, .fixed fun w => .ldu (fieldRT w) (fieldRA w) (fieldDS w)),
    (2, .fixed fun w => .lwa (fieldRT w) (fieldRA w) (fieldDS w)),
    (3, .reserved .reservedSecondary) ]

/-- Group 62, key `W[1:0]` (R128). -/
def table62 : List (Nat × Entry) :=
  [ (0, .fixed fun w => .std (fieldRT w) (fieldRA w) (fieldDS w)),
    (1, .fixed fun w => .stdu (fieldRT w) (fieldRA w) (fieldDS w)),
    (2, .passthrough),
    (3, .reserved .reservedSecondary) ]

/-- The entry a table holds for a key. -/
def Entry.find : List (Nat × Entry) → Nat → Option Entry
  | [], _ => none
  | (k, e) :: rest, key => if k = key then some e else Entry.find rest key

/-- The top-level table (R122): every primary opcode has exactly one entry. -/
def topTable : List (Nat × Entry) := topTableLow ++ topTableHigh

/-- The first table of group 31 (R125). -/
def table31 : List (Nat × Entry) := table31a ++ table31b ++ table31c

/-- The entry of a word in a nested group (R123 to R128): a key that no table of the group holds is the
decoder-defined default, passthrough; group 31 consults its second table only when the first has no entry. -/
def groupEntry (g : Group) (w : InsnWord) : Entry :=
  match g with
  | .g19 => (Entry.find table19 (fieldXO10 w).toNat).getD .passthrough
  | .g30 => (Entry.find table30 (fieldXO4 w).toNat).getD .passthrough
  | .g31 =>
    ((Entry.find table31 (fieldXO10 w).toNat).orElse
      fun _ => Entry.find table31XO (fieldXO9 w).toNat).getD .passthrough
  | .g58 => (Entry.find table58 (fieldXO2 w).toNat).getD .passthrough
  | .g62 => (Entry.find table62 (fieldXO2 w).toNat).getD .passthrough

/-- The entry a word reaches: at most two levels deep (R120). -/
def entryOf (w : InsnWord) : Entry :=
  match (Entry.find topTable (fieldOPCD w).toNat).getD .passthrough with
  | .group g => groupEntry g w
  | e => e

/-- The validity check made after the instruction is identified (R120, R130). -/
def checked (i : Instr) : Verdict :=
  if i.updateFormValid then .success i else .failure .invalidUpdateForm

/-- What an entry emits for a word (R120): the first variant whose condition holds, checked by R130. -/
def Entry.emit (e : Entry) (w : InsnWord) : Verdict :=
  match e with
  | .reserved cause => .failure cause
  | .passthrough => .success (.passthrough w)
  | .fixed mk => checked (mk w)
  | .variant cond first fallback => checked (if cond w then first w else fallback w)
  | .group _ => .failure .reservedSecondary

/-- The decoder (R120, R135): total over all 2^32 words; the verdict depends on the word alone. -/
def decode (w : InsnWord) : Verdict := (entryOf w).emit w

/-- The instruction word of four bytes, the first at the lowest address (R100). -/
def wordOfBytes (b0 b1 b2 b3 : Byte) : InsnWord := b0 ++ b1 ++ b2 ++ b3

/-- The four bytes of an instruction word, lowest address first (R100). -/
def bytesOfWord (w : InsnWord) : List Byte :=
  [w.extractLsb' 24 8, w.extractLsb' 16 8, w.extractLsb' 8 8, w.extractLsb' 0 8]

/-- The decoder on a buffer (10_state.md R32): it reads exactly the first four bytes. A shorter buffer breaks the
caller's guarantee and has no verdict. -/
def decodeBytes : List Byte → Option Verdict
  | b0 :: b1 :: b2 :: b3 :: _ => some (decode (wordOfBytes b0 b1 b2 b3))
  | _ => none

/-- The instruction the decoder reads from the bits `w` of an opcode-table row. A word of a reserved row is read as
that row's own constructor, whose verdict is failure (R129); an invalid update form is refused (R130). -/
def decodeTableWord (nbits w : Nat) : Option Instr :=
  let word : InsnWord := BitVec.ofNat 32 (w % 2 ^ nbits)
  match decodeBytes (bytesOfWord word) with
  | some (.success i) => some i
  | some (.failure .invalidUpdateForm) => none
  | some (.failure _) => some (.reserved word)
  | none => none

/-! ### The encoder, from the form layouts of R104 to R116. Bits a form does not use are written 0. -/

/-- D form (R104). -/
def formD (op : BitVec 6) (rt ra : BitVec 5) (imm : BitVec 16) : InsnWord := op ++ rt ++ ra ++ imm
/-- DS form (R105). -/
def formDS (op : BitVec 6) (rt ra : BitVec 5) (ds : BitVec 14) (xo : BitVec 2) : InsnWord :=
  op ++ rt ++ ra ++ ds ++ xo
/-- I form (R106). -/
def formI (op : BitVec 6) (li : BitVec 24) (aa lk : Bool) : InsnWord :=
  op ++ li ++ BitVec.ofBool aa ++ BitVec.ofBool lk
/-- B form (R107). -/
def formB (op : BitVec 6) (bo bi : BitVec 5) (bd : BitVec 14) (aa lk : Bool) : InsnWord :=
  op ++ bo ++ bi ++ bd ++ BitVec.ofBool aa ++ BitVec.ofBool lk
/-- M form (R108). -/
def formM (op : BitVec 6) (rs ra rb mb me : BitVec 5) (rc : Bool) : InsnWord :=
  op ++ rs ++ ra ++ rb ++ mb ++ me ++ BitVec.ofBool rc
/-- MD form (R109). -/
def formMD (op : BitVec 6) (rs ra : BitVec 5) (sh mbe : BitVec 6) (xo : BitVec 3) (rc : Bool) : InsnWord :=
  op ++ rs ++ ra ++ sh.extractLsb' 0 5 ++ mbe.extractLsb' 0 5 ++ mbe.extractLsb' 5 1 ++ xo
    ++ sh.extractLsb' 5 1 ++ BitVec.ofBool rc
/-- MDS form (R110). -/
def formMDS (op : BitVec 6) (rs ra rb : BitVec 5) (mbe : BitVec 6) (xo : BitVec 4) (rc : Bool) : InsnWord :=
  op ++ rs ++ ra ++ rb ++ mbe.extractLsb' 0 5 ++ mbe.extractLsb' 5 1 ++ xo ++ BitVec.ofBool rc
/-- X and XL forms (R111, R112). -/
def formX (op : BitVec 6) (rt ra rb : BitVec 5) (xo : BitVec 10) (rc : Bool) : InsnWord :=
  op ++ rt ++ ra ++ rb ++ xo ++ BitVec.ofBool rc
/-- XFX form with an SPR or TBR number (R113): the two 5-bit halves stand swapped. -/
def formXFXSpr (op : BitVec 6) (rt : BitVec 5) (spr xo : BitVec 10) : InsnWord :=
  op ++ rt ++ spr.extractLsb' 0 5 ++ spr.extractLsb' 5 5 ++ xo ++ 0#1
/-- XFX form with a CR field mask (R113). -/
def formXFXCr (op : BitVec 6) (rt : BitVec 5) (one : Bool) (fxm : BitVec 8) (xo : BitVec 10) : InsnWord :=
  op ++ rt ++ BitVec.ofBool one ++ fxm ++ 0#1 ++ xo ++ 0#1
/-- XO form (R114). -/
def formXO (op : BitVec 6) (rt ra rb : BitVec 5) (oe : Bool) (xo : BitVec 9) (rc : Bool) : InsnWord :=
  op ++ rt ++ ra ++ rb ++ BitVec.ofBool oe ++ xo ++ BitVec.ofBool rc
/-- XS form (R115). -/
def formXS (op : BitVec 6) (rs ra : BitVec 5) (sh : BitVec 6) (xo : BitVec 9) (rc : Bool) : InsnWord :=
  op ++ rs ++ ra ++ sh.extractLsb' 0 5 ++ xo ++ sh.extractLsb' 5 1 ++ BitVec.ofBool rc
/-- SC form (R116). -/
def formSC (op : BitVec 6) (lev : BitVec 7) : InsnWord := op ++ 0#14 ++ lev ++ 0#5

/-- The word of an instruction (R104 to R116 with the opcode and key values of R122 to R128). -/
def encode : Instr → InsnWord
  | .tdi toBits ra si => formD 2 toBits ra si
  | .twi toBits ra si => formD 3 toBits ra si
  | .mulli rt ra si => formD 7 rt ra si
  | .subfic rt ra si => formD 8 rt ra si
  | .cmpli bf l ra ui => formD 10 (bf ++ 0#1 ++ BitVec.ofBool l) ra ui
  | .cmpi bf l ra si => formD 11 (bf ++ 0#1 ++ BitVec.ofBool l) ra si
  | .addic rt ra si => formD 12 rt ra si
  | .addicRc rt ra si => formD 13 rt ra si
  | .li rt si => formD 14 rt 0#5 si
  | .addi rt ra si => formD 14 rt ra si
  | .lis rt si => formD 15 rt 0#5 si
  | .addis rt ra si => formD 15 rt ra si
  | .bc bo bi bd => formB 16 bo bi bd false false
  | .bca bo bi bd => formB 16 bo bi bd true false
  | .bcl bo bi bd => formB 16 bo bi bd false true
  | .bcla bo bi bd => formB 16 bo bi bd true true
  | .sc lev => formSC 17 lev
  | .b li => formI 18 li false false
  | .ba li => formI 18 li true false
  | .bl li => formI 18 li false true
  | .bla li => formI 18 li true true
  | .rlwimi rs ra sh mb me rc => formM 20 rs ra sh mb me rc
  | .rlwinm rs ra sh mb me rc => formM 21 rs ra sh mb me rc
  | .rlwnm rs ra rb mb me rc => formM 23 rs ra rb mb me rc
  | .nop => formD 24 0#5 0#5 0#16
  | .ori rs ra ui => formD 24 rs ra ui
  | .oris rs ra ui => formD 25 rs ra ui
  | .xori rs ra ui => formD 26 rs ra ui
  | .xoris rs ra ui => formD 27 rs ra ui
  | .andiRc rs ra ui => formD 28 rs ra ui
  | .andisRc rs ra ui => formD 29 rs ra ui
  | .lwz rt ra d => formD 32 rt ra d
  | .lwzu rt ra d => formD 33 rt ra d
  | .lbz rt ra d => formD 34 rt ra d
  | .lbzu rt ra d => formD 35 rt ra d
  | .stw rs ra d => formD 36 rs ra d
  | .stwu rs ra d => formD 37 rs ra d
  | .stb rs ra d => formD 38 rs ra d
  | .stbu rs ra d => formD 39 rs ra d
  | .lhz rt ra d => formD 40 rt ra d
  | .lhzu rt ra d => formD 41 rt ra d
  | .lha rt ra d => formD 42 rt ra d
  | .lhau rt ra d => formD 43 rt ra d
  | .sth rs ra d => formD 44 rs ra d
  | .sthu rs ra d => formD 45 rs ra d
  | .mcrf bf bfa => formX 19 (bf ++ 0#2) (bfa ++ 0#2) 0#5 0 false
  | .bclr bo bi bh => formX 19 bo bi (0#3 ++ bh) 16 false
  | .bclrl bo bi bh => formX 19 bo bi (0#3 ++ bh) 16 true
  | .rfid => formX 19 0#5 0#5 0#5 18 false
  | .crnor bt ba bb => formX 19 bt ba bb 33 false
  | .crandc bt ba bb => formX 19 bt ba bb 129 false
  | .isync => formX 19 0#5 0#5 0#5 150 false
  | .crxor bt ba bb => formX 19 bt ba bb 193 false
  | .crnand bt ba bb => formX 19 bt ba bb 225 false
  | .crand bt ba bb => formX 19 bt ba bb 257 false
  | .hrfid => formX 19 0#5 0#5 0#5 274 false
  | .creqv bt ba bb => formX 19 bt ba bb 289 false
  | .crorc bt ba bb => formX 19 bt ba bb 417 false
  | .cror bt ba bb => formX 19 bt ba bb 449 false
  | .bcctr bo bi bh => formX 19 bo bi (0#3 ++ bh) 528 false
  | .bcctrl bo bi bh => formX 19 bo bi (0#3 ++ bh) 528 true
  | .rldicl rs ra sh mb rc => formMD 30 rs ra sh mb 0 rc
  | .rldicr rs ra sh me rc => formMD 30 rs ra sh me 1 rc
  | .rldic rs ra sh mb rc => formMD 30 rs ra sh mb 2 rc
  | .rldimi rs ra sh mb rc => formMD 30 rs ra sh mb 3 rc
  | .rldcl rs ra rb mb rc => formMDS 30 rs ra rb mb 8 rc
  | .rldcr rs ra rb me rc => formMDS 30 rs ra rb me 9 rc
  | .cmp bf l ra rb => formX 31 (bf ++ 0#1 ++ BitVec.ofBool l) ra rb 0 false
  | .tw toBits ra rb => formX 31 toBits ra rb 4 false
  | .subfc rt ra rb oe rc => formXO 31 rt ra rb oe 8 rc
  | .mulhdu rt ra rb rc => formX 31 rt ra rb 9 rc
  | .addc rt ra rb oe rc => formXO 31 rt ra rb oe 10 rc
  | .mulhwu rt ra rb rc => formX 31 rt ra rb 11 rc
  | .mfcr rt => formXFXCr 31 rt false 0#8 19
  | .mfocrf rt fxm => formXFXCr 31 rt true fxm 19
  | .lwarx rt ra rb => formX 31 rt ra rb 20 false
  | .ldx rt ra rb => formX 31 rt ra rb 21 false
  | .lwzx rt ra rb => formX 31 rt ra rb 23 false
  | .slw rs ra rb rc => formX 31 rs ra rb 24 rc
  | .cntlzw rs ra rc => formX 31 rs ra 0#5 26 rc
  | .sld rs ra rb rc => formX 31 rs ra rb 27 rc
  | .and rs ra rb rc => formX 31 rs ra rb 28 rc
  | .cmpl bf l ra rb => formX 31 (bf ++ 0#1 ++ BitVec.ofBool l) ra rb 32 false
  | .subf rt ra rb oe rc => formXO 31 rt ra rb oe 40 rc
  | .ldux rt ra rb => formX 31 rt ra rb 53 false
  | .dcbst ra rb => formX 31 0#5 ra rb 54 false
  | .lwzux rt ra rb => formX 31 rt ra rb 55 false
  | .cntlzd rs ra rc => formX 31 rs ra 0#5 58 rc
  | .andc rs ra rb rc => formX 31 rs ra rb 60 rc
  | .td toBits ra rb => formX 31 toBits ra rb 68 false
  | .mulhd rt ra rb rc => formX 31 rt ra rb 73 rc
  | .mulhw rt ra rb rc => formX 31 rt ra rb 75 rc
  | .mfmsr rt => formX 31 rt 0#5 0#5 83 false
  | .ldarx rt ra rb => formX 31 rt ra rb 84 false
  | .dcbf ra rb => formX 31 0#5 ra rb 86 false
  | .lbzx rt ra rb => formX 31 rt ra rb 87 false
  | .neg rt ra oe rc => formXO 31 rt ra 0#5 oe 104 rc
  | .lbzux rt ra rb => formX 31 rt ra rb 119 false
  | .nor rs ra rb rc => formX 31 rs ra rb 124 rc
  | .subfe rt ra rb oe rc => formXO 31 rt ra rb oe 136 rc
  | .adde rt ra rb oe rc => formXO 31 rt ra rb oe 138 rc
  | .mtcrf rs fxm => formXFXCr 31 rs false fxm 144
  | .mtocrf rs fxm => formXFXCr 31 rs true fxm 144
  | .mtmsr rs => formX 31 rs 0#5 0#5 146 false
  | .stdx rs ra rb => formX 31 rs ra rb 149 false
  | .stwcx rs ra rb => formX 31 rs ra rb 150 false
  | .stwx rs ra rb => formX 31 rs ra rb 151 false
  | .mtmsrd rs => formX 31 rs 0#5 0#5 178 false
  | .stdux rs ra rb => formX 31 rs ra rb 181 false
  | .stwux rs ra rb => formX 31 rs ra rb 183 false
  | .subfze rt ra oe rc => formXO 31 rt ra 0#5 oe 200 rc
  | .addze rt ra oe rc => formXO 31 rt ra 0#5 oe 202 rc
  | .stdcx rs ra rb => formX 31 rs ra rb 214 false
  | .stbx rs ra rb => formX 31 rs ra rb 215 false
  | .subfme rt ra oe rc => formXO 31 rt ra 0#5 oe 232 rc
  | .mulld rt ra rb oe rc => formXO 31 rt ra rb oe 233 rc
  | .addme rt ra oe rc => formXO 31 rt ra 0#5 oe 234 rc
  | .mullw rt ra rb oe rc => formXO 31 rt ra rb oe 235 rc
  | .dcbtst ra rb => formX 31 0#5 ra rb 246 false
  | .stbux rs ra rb => formX 31 rs ra rb 247 false
  | .add rt ra rb oe rc => formXO 31 rt ra rb oe 266 rc
  | .tlbiel rb => formX 31 0#5 0#5 rb 274 false
  | .dcbt ra rb => formX 31 0#5 ra rb 278 false
  | .lhzx rt ra rb => formX 31 rt ra rb 279 false
  | .eqv rs ra rb rc => formX 31 rs ra rb 284 rc
  | .tlbie rb => formX 31 0#5 0#5 rb 306 false
  | .lhzux rt ra rb => formX 31 rt ra rb 311 false
  | .xor rs ra rb rc => formX 31 rs ra rb 316 rc
  | .mfspr rt spr => formXFXSpr 31 rt spr 339
  | .lwax rt ra rb => formX 31 rt ra rb 341 false
  | .lhax rt ra rb => formX 31 rt ra rb 343 false
  | .tlbia => formX 31 0#5 0#5 0#5 370 false
  | .mftb rt tbr => formXFXSpr 31 rt tbr 371
  | .lwaux rt ra rb => formX 31 rt ra rb 373 false
  | .lhaux rt ra rb => formX 31 rt ra rb 375 false
  | .slbmte rs rb => formX 31 rs 0#5 rb 402 false
  | .sthx rs ra rb => formX 31 rs ra rb 407 false
  | .orc rs ra rb rc => formX 31 rs ra rb 412 rc
  | .sradi rs ra sh rc => formXS 31 rs ra sh 413 rc
  | .slbie rb => formX 31 0#5 0#5 rb 434 false
  | .sthux rs ra rb => formX 31 rs ra rb 439 false
  | .mr rs ra rc => formX 31 rs ra rs 444 rc
  | .or rs ra rb rc => formX 31 rs ra rb 444 rc
  | .divdu rt ra rb oe rc => formXO 31 rt ra rb oe 457 rc
  | .divwu rt ra rb oe rc => formXO 31 rt ra rb oe 459 rc
  | .mtspr rs spr => formXFXSpr 31 rs spr 467
  | .nand rs ra rb rc => formX 31 rs ra rb 476 rc
  | .divd rt ra rb oe rc => formXO 31 rt ra rb oe 489 rc
  | .divw rt ra rb oe rc => formXO 31 rt ra rb oe 491 rc
  | .slbia => formX 31 0#5 0#5 0#5 498 false
  | .lwbrx rt ra rb => formX 31 rt ra rb 534 false
  | .srw rs ra rb rc => formX 31 rs ra rb 536 rc
  | .srd rs ra rb rc => formX 31 rs ra rb 539 rc
  | .tlbsync => formX 31 0#5 0#5 0#5 566 false
  | .sync l => formX 31 (0#3 ++ l) 0#5 0#5 598 false
  | .stwbrx rs ra rb => formX 31 rs ra rb 662 false
  | .lhbrx rt ra rb => formX 31 rt ra rb 790 false
  | .sraw rs ra rb rc => formX 31 rs ra rb 792 rc
  | .srad rs ra rb rc => formX 31 rs ra rb 794 rc
  | .srawi rs ra sh rc => formX 31 rs ra sh 824 rc
  | .slbmfev rt rb => formX 31 rt 0#5 rb 851 false
  | .eieio => formX 31 0#5 0#5 0#5 854 false
  | .slbmfee rt rb => formX 31 rt 0#5 rb 915 false
  | .sthbrx rs ra rb => formX 31 rs ra rb 918 false
  | .extsh rs ra rc => formX 31 rs ra 0#5 922 rc
  | .extsb rs ra rc => formX 31 rs ra 0#5 954 rc
  | .icbi ra rb => formX 31 0#5 ra rb 982 false
  | .extsw rs ra rc => formX 31 rs ra 0#5 986 rc
  | .dcbz ra rb => formX 31 0#5 ra rb 1014 false
  | .ld rt ra ds => formDS 58 rt ra ds 0
  | .ldu rt ra ds => formDS 58 rt ra ds 1
  | .lwa rt ra ds => formDS 58 rt ra ds 2
  | .std rs ra ds => formDS 62 rs ra ds 0
  | .stdu rs ra ds => formDS 62 rs ra ds 1
  | .reserved w => w
  | .passthrough w => w

end Sys2Proof
end

