-- ==== Sys2Proof/Config.lean ====
section
/-! DEFINITION. What the spec leaves to the implementation: the named parameters of 00_scope.md R9 with their
defaults, and the free values (`draw_n`, R15). -/

namespace Sys2Proof.Config

/-- `CA_OV_MODE` (10_state.md R47): who writes XER.CA, XER.OV and XER.SO. -/
inductive CaOvMode where
  | reference
  | architectural
  | havoc
deriving DecidableEq, Repr

/-- `RLDCR_SHIFT` (45_rotate_shift.md R459): where rldcr takes its shift amount from. -/
inductive RldcrShift where
  | field6
  | field5
  | register
deriving DecidableEq, Repr

/-- `MISALIGNED_DATA` (20_memory.md R75): what a misaligned data access does. -/
inductive MisalignedData where
  | fault
  | allow
deriving DecidableEq, Repr

/-- The parameters of 00_scope.md R9 that are fixed for a run. -/
structure Params where
  caOvMode : CaOvMode
  rldcrShift : RldcrShift
  misalignedData : MisalignedData
deriving DecidableEq, Repr

/-- The defaults of 00_scope.md R9, "the value this spec asserts for the hardware". -/
def Params.default : Params :=
  { caOvMode := .reference, rldcrShift := .field6, misalignedData := .fault }

/-- The supply of draws (00_scope.md R15): draw number k is `freeValue k`, of which `draw_n` is the low n bits.
It has no body, so no proof can rest on a particular value (assumption log 10). -/
opaque freeValue : Nat → BitVec 64

end Sys2Proof.Config
end

