-- ==== Sys2Proof/Machine/State.lean ====
section
/-! DEFINITION. The consumer machine's state (10_state.md R35 to R54), the reasons a step can stop (60_exceptions.md
R603, R604), the launch record (70_reset_and_hazards.md R701) and the state after reset. -/

namespace Sys2Proof.Machine

open Sys2Proof.Config

/-- Memory: the bytes that differ from what an unlisted address reads as, by strictly rising address (20_memory.md R70;
canonical form: `Memory.wf`). -/
abbrev Memory := List Host.Cell

/-- The kinds of access the admission predicate distinguishes (20_memory.md R71). -/
inductive AccessKind where
  | read
  | write
  | fetch
deriving DecidableEq, Repr

/-- One grant of the admission predicate: accesses of `size` bytes and kind `kind` whose first address lies in
`base .. base + count - 1`. Any predicate on the address, size and kind over the 64-bit space is a finite list of grants. -/
structure Grant where
  kind : AccessKind
  size : Nat
  base : Nat
  count : Nat
deriving DecidableEq, Repr

/-- The consumer machine (10_state.md R35 to R42, R51 to R53; 20_memory.md R71, R87; 70 R701). A register that may be
`unset` (R53) holds `none` then. -/
structure State where
  /-- GPR[0] .. GPR[31], each a value or `unset` (R35, R53). -/
  gpr : Vector (Option Word) 32
  /-- The program counter; CIA during an instruction (R37). -/
  pc : Word
  /-- The condition register (R38). -/
  cr : BitVec 32
  /-- XER.SO, XER.OV and XER.CA (R40). -/
  so : Bool
  ov : Bool
  ca : Bool
  /-- The link register (R41) and the count register (R42), each a value or `unset` (R53). -/
  lr : Option Word
  ctr : Option Word
  /-- The one address space (20_memory.md R70). -/
  mem : Memory
  /-- The addresses of the bytes that stores of this run wrote, strictly rising (20_memory.md R87). -/
  written : List Nat
  /-- The launch's admission predicate (20_memory.md R71). -/
  admitted : List Grant
  /-- The launch's exit address (70 R701, R702). -/
  exit : Word
  /-- The named parameters (00_scope.md R9), fixed for the run. -/
  params : Params
  /-- The MODEL's own field: the number of the next draw (00_scope.md R15; assumption log 10). -/
  nextDraw : Nat
deriving DecidableEq, Repr

/-- Why a step stops with no successor. The first seven are the spec's faults (60_exceptions.md R604), which are
behaviour the spec asserts; the last two carry the outcomes `stuck` and `Halt` of R601, for which `Host.Outcome` has no
constructor of its own. A fault reports no state: the state it leaves is the one the step started from (R606). -/
inductive Fault where
  /-- Raised by `step` when the fetched word fails decode, and by the `reserved` row (R605). Safe: the spec's own. -/
  | illegalInstruction (w : InsnWord)
  /-- Raised by `step` when PC is not a multiple of 4 (20_memory.md R77). Safe: the spec's own. -/
  | misalignedFetch (pc : Word)
  /-- Raised by `step` when a byte to fetch was written by a store of the run (20_memory.md R87). Safe. -/
  | modifiedCodeFetch (pc : Word)
  /-- Raised by every read of a GPR, LR or CTR that is `unset` (10_state.md R53). Safe: the spec's own. -/
  | unsetRegister
  /-- Raised by loads and stores of n bytes at an EA that n does not divide (20_memory.md R75). Safe. -/
  | misalignedData (ea : Word) (n : Nat)
  /-- Raised by tw, twi, td and tdi when their condition holds (46_system.md R531). Safe: the spec's own. -/
  | trapTaken (cia : Word)
  /-- Raised by sc (46_system.md R530). Safe: the spec's own. -/
  | systemCall (lev : BitVec 7)
  /-- Raised by `step`, loads and stores for an access the launch gives no admission: the spec's `stuck`, "no successor
  exists" (20_memory.md R71, 60 R601). Safe: nothing is asserted of such a run. -/
  | stuck (addr : Word) (n : Nat) (kind : AccessKind)
  /-- Raised by `step` when PC is the exit address: the spec's `Halt`, the normal end of a run (60 R601). Safe. -/
  | halted
deriving DecidableEq, Repr

/-- Why the model declines to give a step a meaning (60_exceptions.md R603). Each is safe: nothing can be proved of
what such a run does next. -/
inductive Refusal where
  /-- An arm of `exec` not written yet; no arm is. Safe. -/
  | notModelled (mnemonic : String)
  /-- Raised by the execution of a passthrough word (30_encoding.md R131). Safe. -/
  | passthrough
  /-- Raised by bcctr and bcctrl with BO2 = 0 (40_branch.md R214). Safe. -/
  | bcctrDecrement
  /-- Raised by an intrinsic of class refused, with its identifier (46_system.md R506, R507). Safe. -/
  | unmodelled (id : Nat)
  /-- Raised by mfspr, mtspr and mftb of a number that 46_system.md R500 gives no meaning. Safe. -/
  | unmodelledSPR (n : BitVec 10)
deriving DecidableEq, Repr

/-- The code of a fault reason (60_exceptions.md R604); `stuck` and `Halt` are no faults of that table. -/
def Fault.code : Fault → Option Nat
  | .illegalInstruction _ => some 1
  | .misalignedFetch _ => some 2
  | .modifiedCodeFetch _ => some 3
  | .unsetRegister => some 4
  | .misalignedData _ _ => some 5
  | .trapTaken _ => some 6
  | .systemCall _ => some 7
  | .stuck _ _ _ => none
  | .halted => none

/-- The outcome of a step or of one instruction's meaning (60_exceptions.md R601). -/
abbrev Result := Host.Outcome State Fault Refusal

/-- The launch record (70_reset_and_hazards.md R701). -/
structure Launch where
  gpr : Vector (Option Word) 32
  lr : Option Word
  ctr : Option Word
  cr : BitVec 32
  so : Bool
  ov : Bool
  ca : Bool
  entry : Word
  mem : Memory
  admission : List Grant
  exit : Word
deriving DecidableEq, Repr

/-- The start state a launch gives (R701): the written-bytes set is empty at launch. -/
def Launch.start (l : Launch) (p : Params) : State :=
  { gpr := l.gpr, pc := l.entry, cr := l.cr, so := l.so, ov := l.ov, ca := l.ca, lr := l.lr, ctr := l.ctr,
    mem := l.mem, written := [], admitted := l.admission, exit := l.exit, params := p, nextDraw := 0 }

/-- Every access to the whole 64-bit space (assumption log 5). -/
def admitEverything : List Grant :=
  [⟨.fetch, 4, 0, 2 ^ 64⟩,
    ⟨.read, 1, 0, 2 ^ 64⟩, ⟨.read, 2, 0, 2 ^ 64⟩, ⟨.read, 4, 0, 2 ^ 64⟩, ⟨.read, 8, 0, 2 ^ 64⟩,
    ⟨.write, 1, 0, 2 ^ 64⟩, ⟨.write, 2, 0, 2 ^ 64⟩, ⟨.write, 4, 0, 2 ^ 64⟩, ⟨.write, 8, 0, 2 ^ 64⟩]

/-- The launch the model takes for reset: 95_test_vectors.md section 14's entry, exit, LR, CR and XER, with every other
register 0 and every access admitted (DESIGN CHOICE, assumption logs 1 to 5: the spec gives no reset values, R54). -/
def resetLaunch : Launch :=
  { gpr := Vector.replicate 32 (some 0#64), lr := some 0x2000#64, ctr := some 0#64, cr := 0#32,
    so := false, ov := false, ca := false, entry := 0x1000#64, mem := [], admission := admitEverything,
    exit := 0x2000#64 }

/-- The machine right after reset: the model's launch under the default parameters of 00_scope.md R9. -/
def State.reset : State := resetLaunch.start Params.default

end Sys2Proof.Machine
end

