-- ==== Sys2Proof/Machine/Ops.lean ====
section
/-! DEFINITION. The named operations over memory, registers and draws, the checks every access makes, fetching an
instruction's bytes, and raising a fault (20_memory.md; 10_state.md R35, R37, R53; 60_exceptions.md R602, R608). -/

namespace Sys2Proof.Machine

open Sys2Proof.Config

/-! ### Memory (20_memory.md R70 to R74) -/

/-- What an address that no entry of a `Memory` lists reads as (DESIGN CHOICE, assumption log 4). -/
def unlistedByte : Byte := 0#8

/-- The byte at an address. -/
def Memory.read : Memory → Nat → Byte
  | [], _ => unlistedByte
  | (a, b) :: rest, x => if a = x then b else Memory.read rest x

/-- A cell put in its place by address, before the first cell of a higher address. -/
def Memory.place : Memory → Nat → Byte → Memory
  | [], x, v => [(x, v)]
  | (a, b) :: rest, x, v => if x < a then (x, v) :: (a, b) :: rest else (a, b) :: Memory.place rest x v

/-- The memory with one byte stored: the address's own entry goes, and a new one comes unless the value is what an
unlisted address reads as. The canonical form is kept. -/
def Memory.write (m : Memory) (x : Nat) (v : Byte) : Memory :=
  let rest := m.filter fun c => decide (c.1 ≠ x)
  if v = unlistedByte then rest else Memory.place rest x v

/-- The canonical form: addresses strictly rising and inside the 64-bit space, and no entry equal to what an unlisted
address reads as. -/
def Memory.wf (m : Memory) : Bool :=
  decide (m.Pairwise fun p q => p.1 < q.1) && m.all fun c => decide (c.1 < 2 ^ 64) && decide (c.2 ≠ unlistedByte)

/-- The n bytes at addr .. addr+n-1, addresses mod 2^64, lowest address first (R72). -/
def readBytes (m : Memory) (addr : Word) : Nat → List Byte
  | 0 => []
  | n + 1 => m.read addr.toNat :: readBytes m (addr + 1#64) n

/-- The memory with a list of bytes stored from addr upwards, addresses mod 2^64 (R73). -/
def writeBytes (m : Memory) (addr : Word) : List Byte → Memory
  | [] => m
  | b :: bs => writeBytes (m.write addr.toNat b) (addr + 1#64) bs

/-- The unsigned value of a list of bytes, the first the most significant (R72). -/
def beValue (bs : List Byte) : Nat := bs.foldl (fun acc b => acc * 256 + b.toNat) 0

/-- The n bytes of an 8n-bit value, the most significant first: byte k is `v[8(n-k)-1 : 8(n-k)-8]` (R73). -/
def bytesBE (n : Nat) (v : BitVec (8 * n)) : List Byte :=
  (List.range n).map fun k => v.extractLsb' (8 * (n - k) - 8) 8

/-- `MemRead(addr, n)`: big-endian (R72). -/
def memRead (m : Memory) (addr : Word) (n : Nat) : BitVec (8 * n) := BitVec.ofNat (8 * n) (beValue (readBytes m addr n))

/-- `MemWrite(addr, n, v)`: big-endian (R73). -/
def memWrite (m : Memory) (addr : Word) (n : Nat) (v : BitVec (8 * n)) : Memory := writeBytes m addr (bytesBE n v)

/-- `ByteRev_n(v)`: the n bytes of v in reverse order (R74). -/
def byteRev (n : Nat) (v : BitVec (8 * n)) : BitVec (8 * n) := BitVec.ofNat (8 * n) (beValue (bytesBE n v).reverse)

/-! ### The written-bytes set (R87) -/

/-- A strictly rising list of addresses with one more address in it. -/
def insertAddr : List Nat → Nat → List Nat
  | [], x => [x]
  | a :: rest, x => if x < a then x :: a :: rest else if x = a then a :: rest else a :: insertAddr rest x

/-- The set with the n addresses addr .. addr+n-1 (mod 2^64) in it. -/
def markWritten (ws : List Nat) (addr : Word) : Nat → List Nat
  | 0 => ws
  | n + 1 => markWritten (insertAddr ws addr.toNat) (addr + 1#64) n

/-- A byte of addr .. addr+n-1 (mod 2^64) is in the set. -/
def anyWritten (ws : List Nat) (addr : Word) : Nat → Bool
  | 0 => false
  | n + 1 => ws.contains addr.toNat || anyWritten ws (addr + 1#64) n

/-! ### Admission and alignment (R71, R75) -/

/-- A grant admits the access of n bytes at addr. -/
def Grant.admits (g : Grant) (addr : Word) (n : Nat) (kind : AccessKind) : Bool :=
  decide (g.kind = kind) && decide (g.size = n) && decide (g.base ≤ addr.toNat)
    && decide (addr.toNat < g.base + g.count)

/-- The admission of an access: its address, size and kind (R71). -/
def State.admits (s : State) (addr : Word) (n : Nat) (kind : AccessKind) : Bool :=
  s.admitted.any fun g => g.admits addr n kind

/-- An access of n bytes at addr is aligned (R75). -/
def aligned (addr : Word) (n : Nat) : Bool := addr.toNat % n == 0

/-! ### Stopping: every fault and every refusal is precise, and no fault transfers control (60 R606, R608) -/

/-- `raise Fault(reason)` (00_scope.md R15): the step ends, no register, flag, byte of memory or PC changes; there is
no vector, no saved register and no mode change (60 R608). -/
def raise (f : Fault) : Result := .fault f

/-- `refuse(reason)` (00_scope.md R15). -/
def refuse (r : Refusal) : Result := .refused r

/-- The checks of a data access, in order: alignment, then admission (42_load_store.md R281, R282; 60 R602). -/
def withAccess (kind : AccessKind) (ea : Word) (n : Nat) (s : State) (k : Result) : Result :=
  if !aligned ea n && decide (s.params.misalignedData = .fault) then raise (.misalignedData ea n)
  else if !s.admits ea n kind then raise (.stuck ea n kind)
  else k

/-! ### Registers (10_state.md R35, R37, R53) -/

/-- `GPR[r]`, or `none` when it is unset (R35, R53). -/
def State.readGpr (s : State) (r : Reg) : Option Word := s.gpr[r.toNat]'r.isLt

/-- `GPR[r] <- v`: a write makes the register set (R53). -/
def State.setGpr (s : State) (r : Reg) (v : Word) : State := { s with gpr := s.gpr.set r.toNat (some v) r.isLt }

/-- `(RA|0)`: the constant 0 when the field is 0, and GPR[RA] otherwise (00_scope.md R15). -/
def State.readGprOrZero (s : State) (ra : Reg) : Option Word := if ra = 0#5 then some 0#64 else s.readGpr ra

/-- Run the rest of an instruction on an operand that was read; an unset register raises `Fault(UnsetRegister)`
(R53). -/
def withOperand {α : Type} (o : Option α) (k : α → Result) : Result :=
  match o with
  | some v => k v
  | none => raise .unsetRegister

/-- `PC <- CIA + 4` mod 2^64 (R37). -/
def State.advance (s : State) : State := { s with pc := s.pc + 4#64 }

/-! ### Draws (00_scope.md R15; assumption log 10) -/

/-- A fresh `draw_n`, n at most 64: the low n bits of the next free value. -/
def State.draw (s : State) (n : Nat) : BitVec n := (freeValue s.nextDraw).setWidth n

/-- The state after one draw was taken. -/
def State.drawn (s : State) : State := { s with nextDraw := s.nextDraw + 1 }

/-! ### Stores and fetch -/

/-- A store of n bytes: the memory, and the written-bytes set of R87. -/
def State.store (s : State) (ea : Word) (n : Nat) (v : BitVec (8 * n)) : State :=
  { s with mem := memWrite s.mem ea n v, written := markWritten s.written ea n }

/-- The word at PC, big-endian (R76, R100). -/
def State.fetchWord (s : State) : InsnWord := memRead s.mem s.pc 4

/-- What stops a step before an instruction is fetched, in the order of 60_exceptions.md R602 steps 1 to 4. -/
def State.fetchStop (s : State) : Option Fault :=
  if s.pc = s.exit then some .halted
  else if !aligned s.pc 4 then some (.misalignedFetch s.pc)
  else if !s.admits s.pc 4 .fetch then some (.stuck s.pc 4 .fetch)
  else if anyWritten s.written s.pc 4 then some (.modifiedCodeFetch s.pc)
  else none

/-- The state with a word placed at PC as part of the launch memory: stored big-endian, its bytes not in the
written-bytes set, and fetchable (assumption log 11). -/
def State.placeWord (s : State) (w : InsnWord) : State :=
  { s with
    mem := writeBytes s.mem s.pc (bytesOfWord w)
    written := s.written.filter fun a => decide ((BitVec.ofNat 64 a - s.pc).toNat ≥ 4)
    admitted := if s.admits s.pc 4 .fetch then s.admitted else ⟨.fetch, 4, s.pc.toNat, 1⟩ :: s.admitted }

end Sys2Proof.Machine
end

