-- ==== Sys2Proof/Machine/Flags.lean ====
section
/-! DEFINITION. The condition register and the flag-write requests (10_state.md R38, R39, R44 to R49; 43_arith.md R341;
44_compare_logical.md R400; 45_rotate_shift.md R450). -/

namespace Sys2Proof.Machine

open Sys2Proof.Config

/-! ### The condition register (R38): bit i in IBM order is LSB-0 bit 31-i -/

/-- CR bit i in IBM order. -/
def crBit (cr : BitVec 32) (i : BitVec 5) : Bool := cr.getLsbD (31 - i.toNat)

/-- `CR[i] <- b`: one bit overwritten. -/
def setCrBit (cr : BitVec 32) (i : BitVec 5) (b : Bool) : BitVec 32 :=
  let bit : BitVec 32 := 1#32 <<< (31 - i.toNat)
  if b then cr ||| bit else cr &&& ~~~bit

/-- `CRF[f]`: `CR[31-4f : 28-4f]` in LSB-0. -/
def crField (cr : BitVec 32) (f : BitVec 3) : BitVec 4 := cr.extractLsb' (28 - 4 * f.toNat) 4

/-- `CRF[f] <- v`: four bits overwritten. -/
def setCrField (cr : BitVec 32) (f : BitVec 3) (v : BitVec 4) : BitVec 32 :=
  (cr &&& ~~~(0xF#32 <<< (28 - 4 * f.toNat))) ||| (v.setWidth 32 <<< (28 - 4 * f.toNat))

/-- The SO bit of CR field f, its least significant bit (R39). -/
def crFieldSO (cr : BitVec 32) (f : BitVec 3) : Bool := (crField cr f).getLsbD 0

/-! ### Comparison flags -/

/-- The 3-bit LT, GT, EQ result of a comparison of integers (44 R400). -/
def compareInt (a b : Int) : BitVec 3 := if a < b then 0b100#3 else if b < a then 0b010#3 else 0b001#3

/-- The comparison-flag write request on field f: `CRF[f] <- c || (CRF[f][0] | so)`, the SO bit sticky (R45, R46,
R49). -/
def State.writeCompare (s : State) (f : BitVec 3) (c : BitVec 3) (so : Bool) : State :=
  { s with cr := setCrField s.cr f (c ++ BitVec.ofBool (crFieldSO s.cr f || so)) }

/-- A compare instruction's flag write (R49). -/
def State.compareResult (s : State) (bf : BitVec 3) (c : BitVec 3) : State := s.writeCompare bf c s.so

/-- The record form's CR0 write from a 64-bit result (R46). -/
def State.recordResult (s : State) (res : Word) : State := s.writeCompare 0#3 (compareInt res.toInt 0) s.so

/-- The record form's CR0 write where the result, or any bit of it, is a draw (R46): LT, GT and EQ are `draw_3`. -/
def State.recordDrawn (s : State) : State := (s.writeCompare 0#3 (s.draw 3) s.so).drawn

/-- The carry family's CR0 write under `reference` (R47): `draw_3 || (CRF[0][0] | draw_1)`, two draws. -/
def State.recordCarryDraw (s : State) : State :=
  (s.writeCompare 0#3 (s.draw 3) (s.drawn.draw 1 == 1#1)).drawn.drawn

/-- `Rc = 1`: record the result. -/
def State.recordIf (s : State) (rc : Bool) (res : Word) : State := if rc then s.recordResult res else s

/-- `Rc = 1` of an instruction whose result holds draws. -/
def State.recordDrawnIf (s : State) (rc : Bool) : State := if rc then s.recordDrawn else s

/-- `Rc = 1` of the carry family (R47, 43 R340): a draw under `reference`; R46 under `architectural`; under `havoc`
every bit the architectural mode would write is a draw (assumption log 13). -/
def State.recordCarryIf (s : State) (rc : Bool) (res : Word) : State :=
  if rc then
    match s.params.caOvMode with
    | .reference => s.recordCarryDraw
    | .architectural => s.recordResult res
    | .havoc => s.recordCarryDraw
  else s

/-! ### Carry and overflow (R47, R48; 43 R341) -/

/-- The carry request: XER.CA is unchanged under `reference`, the carry under `architectural`, a draw under `havoc`. -/
def State.writeCarry (s : State) (carry : Bool) : State :=
  match s.params.caOvMode with
  | .reference => s
  | .architectural => { s with ca := carry }
  | .havoc => { s.drawn with ca := s.draw 1 == 1#1 }

/-- The overflow request of OE = 1: XER.OV and the sticky XER.SO unchanged under `reference`; OV the overflow and SO
ORed with it under `architectural`; under `havoc` OV a draw and SO ORed with another (assumption log 13). -/
def State.writeOverflow (s : State) (oe : Bool) (overflow : Bool) : State :=
  if oe then
    match s.params.caOvMode with
    | .reference => s
    | .architectural => { s with ov := overflow, so := s.so || overflow }
    | .havoc => { s.drawn.drawn with ov := s.draw 1 == 1#1, so := s.so || (s.drawn.draw 1 == 1#1) }
  else s

/-- The carry out of bit 63 of the exact unsigned sum x + y + c (43 R341). -/
def carryOut (x y : Word) (c : Bool) : Bool := decide (2 ^ 64 ≤ x.toNat + y.toNat + c.toNat)

/-- An exact signed value lies outside the signed n-bit range (43 R341). -/
def outsideSigned (n : Nat) (e : Int) : Bool := decide (e < -(2 ^ (n - 1)) ∨ 2 ^ (n - 1) ≤ e)

/-- Overflow of the exact signed sum x + y + c (43 R341). -/
def sumOverflow (x y : Word) (c : Bool) : Bool := outsideSigned 64 (x.toInt + y.toInt + c.toNat)

/-- CA of the shift-algebraic instructions under `architectural` (45 R450): the source's sign bit and any 1 bit among
the n bits shifted out. -/
def shiftCarry (sign : Bool) (source n : Nat) : Bool := sign && decide (source % 2 ^ n ≠ 0)

end Sys2Proof.Machine
end

