-- ==== Sys2Proof/Machine/Operands.lean ====
section
/-! DEFINITION. Operand forms: effective addresses (42_load_store.md R280), the compare operands (44 R400), rotates and
masks (00_scope.md R16; 45 R450), the SPRs (46_system.md R500 to R503), the trap condition (R531), the CR field mask
(30_encoding.md R113), and the register and flag identifiers of the block interface (10_state.md R36, R43). -/

namespace Sys2Proof.Machine

open Sys2Proof.Config

/-! ### Effective addresses (42 R280), mod 2^64; `none` when an address register is unset -/

/-- D form, not update: `(RA|0) + sext_16(D)`. -/
def eaD (ra : Reg) (d : BitVec 16) (s : State) : Option Word := (s.readGprOrZero ra).map (· + sext d)
/-- D form, update: `GPR[RA] + sext_16(D)`. -/
def eaDUpdate (ra : Reg) (d : BitVec 16) (s : State) : Option Word := (s.readGpr ra).map (· + sext d)
/-- DS form, not update: `(RA|0) + sext_16(DS || 0b00)`. -/
def eaDS (ra : Reg) (ds : BitVec 14) (s : State) : Option Word := (s.readGprOrZero ra).map (· + dispDS ds)
/-- DS form, update: `GPR[RA] + sext_16(DS || 0b00)`. -/
def eaDSUpdate (ra : Reg) (ds : BitVec 14) (s : State) : Option Word := (s.readGpr ra).map (· + dispDS ds)
/-- X form, not update: `(RA|0) + GPR[RB]`. -/
def eaX (ra rb : Reg) (s : State) : Option Word :=
  (s.readGprOrZero ra).bind fun a => (s.readGpr rb).map (a + ·)
/-- X form, update: `GPR[RA] + GPR[RB]`. -/
def eaXUpdate (ra rb : Reg) (s : State) : Option Word :=
  (s.readGpr ra).bind fun a => (s.readGpr rb).map (a + ·)

/-! ### Word views and compare operands -/

/-- The low word of a register, `v[31:0]` (00_scope.md R7). -/
def lowWord (v : Word) : BitVec 32 := v.setWidth 32

/-- The operand of a signed compare or trap test: all 64 bits, or the sign-extended low word (44 R400, 46 R531). -/
def signedOperand (double : Bool) (v : Word) : Int := if double then v.toInt else (lowWord v).toInt

/-- The operand of an unsigned compare or trap test: all 64 bits, or the zero-extended low word (44 R400, 46 R531). -/
def unsignedOperand (double : Bool) (v : Word) : Int := if double then (v.toNat : Int) else ((lowWord v).toNat : Int)

/-! ### Rotates (00_scope.md R16) -/

/-- `ROTL64(x, n)`: rotate left by n mod 64. -/
def rotl64 (x : Word) (n : Nat) : Word := x.rotateLeft n
/-- `ROTL32(x, n)`: the low word duplicated into both halves, then rotated as 64 bits. -/
def rotl32 (x : Word) (n : Nat) : Word := rotl64 (lowWord x ++ lowWord x) n
/-- The mask of the 32-bit rotates, `MASK(MB + 32, ME + 32)` (45 R450). -/
def wordMask (mb me : BitVec 5) : Word := rotateMask (mb.toNat + 32) (me.toNat + 32)
/-- Bits of r where the mask is 1 and of old where it is 0 (45 R453, R457). -/
def insertUnder (mask r old : Word) : Word := (r &&& mask) ||| (old &&& ~~~mask)

/-- The number of leading zero bits of an n-bit value (44 R424, R425). -/
def countLeadingZeros {n : Nat} (v : BitVec n) : Nat := if v.toNat = 0 then n else n - 1 - Nat.log2 v.toNat

/-! ### Special-purpose registers (46 R500 to R504) -/

/-- What mfspr of an SPR number reads (R502): a value, an unset register, a draw, or a refused number. -/
inductive SprRead where
  | value (v : Option Word)
  | drawn (v : Word)
  | refusedNumber
deriving DecidableEq, Repr

/-- XER as SPR 1 (R501, R502): SO, OV and CA at bits 31, 30 and 29, every other bit a draw. -/
def State.xerValue (s : State) : Word :=
  (s.draw 64 &&& ~~~0xE0000000#64) ||| ((BitVec.ofBool s.so).setWidth 64 <<< 31)
    ||| ((BitVec.ofBool s.ov).setWidth 64 <<< 30) ||| ((BitVec.ofBool s.ca).setWidth 64 <<< 29)

/-- The SPR numbers mfspr admits (R500, R502). -/
def State.readSpr (s : State) (n : BitVec 10) : SprRead :=
  if n = 1#10 then .drawn s.xerValue
  else if n = 8#10 then .value s.lr
  else if n = 9#10 then .value s.ctr
  else if n = 268#10 ∨ n = 269#10 then .drawn (s.draw 64)
  else .refusedNumber

/-- The SPR numbers mtspr admits (R500, R503); `none` for every other. The write of XER overwrites, it is not sticky. -/
def State.writeSpr (s : State) (n : BitVec 10) : Option (Word → State) :=
  if n = 1#10 then some fun v => { s with so := v.getLsbD 31, ov := v.getLsbD 30, ca := v.getLsbD 29 }
  else if n = 8#10 then some fun v => { s with lr := some v }
  else if n = 9#10 then some fun v => { s with ctr := some v }
  else none

/-! ### The trap condition (46 R531) -/

/-- Whether the trap instruction with field TO traps on a and b: TO0 (value 16) signed less, TO1 signed greater, TO2
equal, TO3 unsigned less, TO4 (value 1) unsigned greater. -/
def trapCondition (toBits : BitVec 5) (double : Bool) (a b : Word) : Bool :=
  let sa := signedOperand double a
  let sb := signedOperand double b
  let ua := unsignedOperand double a
  let ub := unsignedOperand double b
  (toBits.getLsbD 4 && decide (sa < sb)) || (toBits.getLsbD 3 && decide (sb < sa))
    || (toBits.getLsbD 2 && decide (ua = ub)) || (toBits.getLsbD 1 && decide (ua < ub))
    || (toBits.getLsbD 0 && decide (ub < ua))

/-! ### The CR field mask (30 R113, 41 R261 to R263) -/

/-- FXM bit 7-f selects field f. -/
def fxmSelects (fxm : BitVec 8) (f : BitVec 3) : Bool := fxm.getLsbD (7 - f.toNat)

/-- The one field a one-hot FXM selects; `none` when zero bits or several are set. -/
def fxmOneHot (fxm : BitVec 8) : Option (BitVec 3) :=
  match [0#3, 1#3, 2#3, 3#3, 4#3, 5#3, 6#3, 7#3].filter (fxmSelects fxm) with
  | [f] => some f
  | _ => none

/-- CR field f of a value moved to CR: `v[31-4f : 28-4f]` (R262). -/
def sourceField (v : Word) (f : BitVec 3) : BitVec 4 := crField (lowWord v) f

/-- The CR after mtcrf: every selected field overwritten (R262). -/
def moveToFields (cr : BitVec 32) (fxm : BitVec 8) (v : Word) : BitVec 32 :=
  [0#3, 1#3, 2#3, 3#3, 4#3, 5#3, 6#3, 7#3].foldl
    (fun acc f => if fxmSelects fxm f then setCrField acc f (sourceField v f) else acc) cr

/-! ### Identifiers at the block interface (10_state.md R36, R43) -/

/-- A register operand at the block interface. -/
inductive RegOperand where
  | gpr (r : Reg)
  | ctr
  | lr
deriving DecidableEq, Repr

/-- Register identifiers: 0 to 31 the GPRs, 32 CTR, 33 LR (R36). -/
def RegOperand.ident : RegOperand → Nat
  | .gpr r => r.toNat
  | .ctr => 32
  | .lr => 33

/-- The flag an identifier names: 0 to 31 the CR bits in IBM order, 32 SO, 33 OV, 34 CA; 35 to 66 are reserved and
name nothing (R43). -/
def State.flagOfIdent (s : State) (k : Nat) : Option Bool :=
  if k < 32 then some (crBit s.cr (BitVec.ofNat 5 k))
  else if k = 32 then some s.so
  else if k = 33 then some s.ov
  else if k = 34 then some s.ca
  else none

end Sys2Proof.Machine
end

