-- ==== Sys2Proof/Machine/Arith.lean ====
section
/-! DEFINITION. The fixed-point arithmetic instructions (43_arith.md R340 to R378). -/

namespace Sys2Proof.Machine

/-! ### Shared operations -/

/-- The end of an XO-form instruction that is not CA-producing and whose result is defined: RT, the overflow request,
the record request, PC (R340). -/
def finishResult (rt : Reg) (oe rc overflow : Bool) (res : Word) (s : State) : Result :=
  .next (((s.setGpr rt res).writeOverflow oe overflow).recordIf rc res).advance

/-- The end of an instruction whose result, or some bits of it, are a draw already taken (R342, 10_state.md R46). -/
def finishDrawn (rt : Reg) (oe rc overflow : Bool) (res : Word) (s : State) : Result :=
  .next (((s.setGpr rt res).writeOverflow oe overflow).recordDrawnIf rc).advance

/-- `GPR[RT] <- x + y + c` (mod 2^64) of an instruction that is not CA-producing (R358, R363, R368). -/
def addPlain (rt : Reg) (oe rc : Bool) (x y : Word) (c : Bool) (s : State) : Result :=
  finishResult rt oe rc (sumOverflow x y c) (x + y + (BitVec.ofBool c).setWidth 64) s

/-- `GPR[RT] <- x + y + c` (mod 2^64) of a CA-producing instruction of the carry family (R359 to R362, R364 to R367;
10_state.md R47). -/
def addCarrying (rt : Reg) (oe rc : Bool) (x y : Word) (c : Bool) (s : State) : Result :=
  let res := x + y + (BitVec.ofBool c).setWidth 64
  .next ((((s.setGpr rt res).writeCarry (carryOut x y c)).writeOverflow oe (sumOverflow x y c)).recordCarryIf rc
    res).advance

/-- The value -1, the second operand of addme and subfme. -/
def minusOne : Word := BitVec.allOnes 64

/-! ### Immediate forms -/

/-- `addi RT, RA, SI` (R350); RA = 0 decodes as li. -/
def execAddi (rt ra : Reg) (si : BitVec 16) (s : State) : Result :=
  withOperand (s.readGprOrZero ra) fun a => .next (s.setGpr rt (a + sext si)).advance
/-- `li RT, SI` (R351): GPR[0] is not read. -/
def execLi (rt : Reg) (si : BitVec 16) (s : State) : Result := .next (s.setGpr rt (sext si)).advance
/-- `addis RT, RA, SI` (R352); RA = 0 decodes as lis. -/
def execAddis (rt ra : Reg) (si : BitVec 16) (s : State) : Result :=
  withOperand (s.readGprOrZero ra) fun a => .next (s.setGpr rt (a + siShifted si)).advance
/-- `lis RT, SI` (R353). -/
def execLis (rt : Reg) (si : BitVec 16) (s : State) : Result := .next (s.setGpr rt (siShifted si)).advance
/-- `addic RT, RA, SI` (R354): RA = 0 reads GPR[0]. -/
def execAddic (rt ra : Reg) (si : BitVec 16) (s : State) : Result :=
  withOperand (s.readGpr ra) fun a => addCarrying rt false false a (sext si) false s
/-- `addic. RT, RA, SI` (R355): the carry family, recording. -/
def execAddicRc (rt ra : Reg) (si : BitVec 16) (s : State) : Result :=
  withOperand (s.readGpr ra) fun a => addCarrying rt false true a (sext si) false s
/-- `subfic RT, RA, SI` (R356): `~GPR[RA] + sext_16(SI) + 1`. -/
def execSubfic (rt ra : Reg) (si : BitVec 16) (s : State) : Result :=
  withOperand (s.readGpr ra) fun a => addCarrying rt false false (~~~a) (sext si) true s
/-- `mulli RT, RA, SI` (R357): the low 64 bits of the exact product. -/
def execMulli (rt ra : Reg) (si : BitVec 16) (s : State) : Result :=
  withOperand (s.readGpr ra) fun a => .next (s.setGpr rt (BitVec.ofInt 64 (a.toInt * (sext si).toInt))).advance

/-! ### Register add and subtract (XO form) -/

/-- `add` (R358). -/
def execAdd (rt ra rb : Reg) (oe rc : Bool) (s : State) : Result :=
  withOperand (s.readGpr ra) fun a => withOperand (s.readGpr rb) fun b => addPlain rt oe rc a b false s
/-- `addc` (R359). -/
def execAddc (rt ra rb : Reg) (oe rc : Bool) (s : State) : Result :=
  withOperand (s.readGpr ra) fun a => withOperand (s.readGpr rb) fun b => addCarrying rt oe rc a b false s
/-- `adde` (R360): reads CA. -/
def execAdde (rt ra rb : Reg) (oe rc : Bool) (s : State) : Result :=
  withOperand (s.readGpr ra) fun a => withOperand (s.readGpr rb) fun b => addCarrying rt oe rc a b s.ca s
/-- `addme` (R361): `GPR[RA] + CA + (2^64 - 1)`. -/
def execAddme (rt ra : Reg) (oe rc : Bool) (s : State) : Result :=
  withOperand (s.readGpr ra) fun a => addCarrying rt oe rc a minusOne s.ca s
/-- `addze` (R362): `GPR[RA] + CA`. -/
def execAddze (rt ra : Reg) (oe rc : Bool) (s : State) : Result :=
  withOperand (s.readGpr ra) fun a => addCarrying rt oe rc a 0#64 s.ca s
/-- `subf` (R363): `~GPR[RA] + GPR[RB] + 1`. -/
def execSubf (rt ra rb : Reg) (oe rc : Bool) (s : State) : Result :=
  withOperand (s.readGpr ra) fun a => withOperand (s.readGpr rb) fun b => addPlain rt oe rc (~~~a) b true s
/-- `subfc` (R364). -/
def execSubfc (rt ra rb : Reg) (oe rc : Bool) (s : State) : Result :=
  withOperand (s.readGpr ra) fun a => withOperand (s.readGpr rb) fun b => addCarrying rt oe rc (~~~a) b true s
/-- `subfe` (R365): reads CA. -/
def execSubfe (rt ra rb : Reg) (oe rc : Bool) (s : State) : Result :=
  withOperand (s.readGpr ra) fun a => withOperand (s.readGpr rb) fun b => addCarrying rt oe rc (~~~a) b s.ca s
/-- `subfme` (R366): `~GPR[RA] + CA + (2^64 - 1)`. -/
def execSubfme (rt ra : Reg) (oe rc : Bool) (s : State) : Result :=
  withOperand (s.readGpr ra) fun a => addCarrying rt oe rc (~~~a) minusOne s.ca s
/-- `subfze` (R367): `~GPR[RA] + CA`. -/
def execSubfze (rt ra : Reg) (oe rc : Bool) (s : State) : Result :=
  withOperand (s.readGpr ra) fun a => addCarrying rt oe rc (~~~a) 0#64 s.ca s
/-- `neg` (R368): `~GPR[RA] + 1`. -/
def execNeg (rt ra : Reg) (oe rc : Bool) (s : State) : Result :=
  withOperand (s.readGpr ra) fun a => addPlain rt oe rc (~~~a) 0#64 true s

/-! ### Multiply -/

/-- `mulld` (R369): the low 64 bits of the exact signed product. -/
def execMulld (rt ra rb : Reg) (oe rc : Bool) (s : State) : Result :=
  withOperand (s.readGpr ra) fun a => withOperand (s.readGpr rb) fun b =>
    let p := a.toInt * b.toInt
    finishResult rt oe rc (outsideSigned 64 p) (BitVec.ofInt 64 p) s
/-- `mullw` (R370): the exact signed product of the low words, as 64 bits. -/
def execMullw (rt ra rb : Reg) (oe rc : Bool) (s : State) : Result :=
  withOperand (s.readGpr ra) fun a => withOperand (s.readGpr rb) fun b =>
    let p := (lowWord a).toInt * (lowWord b).toInt
    finishResult rt oe rc (outsideSigned 32 p) (BitVec.ofInt 64 p) s
/-- `mulhd` (R371): bits 127:64 of the exact signed product. -/
def execMulhd (rt ra rb : Reg) (rc : Bool) (s : State) : Result :=
  withOperand (s.readGpr ra) fun a => withOperand (s.readGpr rb) fun b =>
    finishResult rt false rc false ((BitVec.ofInt 128 (a.toInt * b.toInt)).extractLsb' 64 64) s
/-- `mulhdu` (R372): bits 127:64 of the exact unsigned product. -/
def execMulhdu (rt ra rb : Reg) (rc : Bool) (s : State) : Result :=
  withOperand (s.readGpr ra) fun a => withOperand (s.readGpr rb) fun b =>
    finishResult rt false rc false ((BitVec.ofNat 128 (a.toNat * b.toNat)).extractLsb' 64 64) s
/-- `mulhw` (R373): bits 63:32 of the signed product of the low words in the low half, a draw in the high half. -/
def execMulhw (rt ra rb : Reg) (rc : Bool) (s : State) : Result :=
  withOperand (s.readGpr ra) fun a => withOperand (s.readGpr rb) fun b =>
    let p := BitVec.ofInt 64 ((lowWord a).toInt * (lowWord b).toInt)
    finishDrawn rt false rc false (s.draw 32 ++ p.extractLsb' 32 32) s.drawn
/-- `mulhwu` (R374): as mulhw, of the unsigned product. -/
def execMulhwu (rt ra rb : Reg) (rc : Bool) (s : State) : Result :=
  withOperand (s.readGpr ra) fun a => withOperand (s.readGpr rb) fun b =>
    let p := BitVec.ofNat 64 ((lowWord a).toNat * (lowWord b).toNat)
    finishDrawn rt false rc false (s.draw 32 ++ p.extractLsb' 32 32) s.drawn

/-! ### Divide: no fault on a zero divisor or an overflow, the result is a draw (R342, R375 to R378) -/

/-- `divd` (R375): the quotient truncated toward zero. -/
def execDivd (rt ra rb : Reg) (oe rc : Bool) (s : State) : Result :=
  withOperand (s.readGpr ra) fun a => withOperand (s.readGpr rb) fun b =>
    if b = 0#64 ∨ (a = 0x8000000000000000#64 ∧ b = 0xFFFFFFFFFFFFFFFF#64) then
      finishDrawn rt oe rc true (s.draw 64) s.drawn
    else finishResult rt oe rc false (BitVec.ofInt 64 (a.toInt.tdiv b.toInt)) s
/-- `divdu` (R376). -/
def execDivdu (rt ra rb : Reg) (oe rc : Bool) (s : State) : Result :=
  withOperand (s.readGpr ra) fun a => withOperand (s.readGpr rb) fun b =>
    if b = 0#64 then finishDrawn rt oe rc true (s.draw 64) s.drawn
    else finishResult rt oe rc false (BitVec.ofNat 64 (a.toNat / b.toNat)) s
/-- `divw` (R377): the quotient of the low words in the low half, a draw in the high half. -/
def execDivw (rt ra rb : Reg) (oe rc : Bool) (s : State) : Result :=
  withOperand (s.readGpr ra) fun a => withOperand (s.readGpr rb) fun b =>
    let x := (lowWord a).toInt
    let y := (lowWord b).toInt
    if y = 0 ∨ (x = -(2 ^ 31) ∧ y = -1) then finishDrawn rt oe rc true (s.draw 64) s.drawn
    else finishDrawn rt oe rc false (s.draw 32 ++ BitVec.ofInt 32 (x.tdiv y)) s.drawn
/-- `divwu` (R378). -/
def execDivwu (rt ra rb : Reg) (oe rc : Bool) (s : State) : Result :=
  withOperand (s.readGpr ra) fun a => withOperand (s.readGpr rb) fun b =>
    let x := (lowWord a).toNat
    let y := (lowWord b).toNat
    if y = 0 then finishDrawn rt oe rc true (s.draw 64) s.drawn
    else finishDrawn rt oe rc false (s.draw 32 ++ BitVec.ofNat 32 (x / y)) s.drawn

end Sys2Proof.Machine
end

