-- ==== Sys2Proof/Machine/Branch.lean ====
section
/-! DEFINITION. The branch-target ALU, the CR and CTR test logic (40_branch.md R200 to R214) and the meanings of the
branch instructions (R215 to R227). -/

namespace Sys2Proof.Machine

/-- BO bit k in IBM order: BO0 is the most significant (40_branch.md preamble). -/
def boBit (bo : BitVec 5) (k : Nat) : Bool := bo.getLsbD (4 - k)

/-- "Always branch": BO0 = 1 and BO2 = 1 (R204). -/
def branchAlways (bo : BitVec 5) : Bool := boBit bo 0 && boBit bo 2

/-- The CTR decrement-and-test applies: BO2 = 0 (R200, R205). -/
def ctrDecrements (bo : BitVec 5) : Bool := !boBit bo 2

/-- The CTR test on the decremented value, when it is requested (R206). -/
def ctrTest (bo : BitVec 5) (ctrNew : Word) : Bool := if boBit bo 3 then ctrNew == 0#64 else ctrNew != 0#64

/-- The CR-bit test (R207). -/
def condTest (bo bi : BitVec 5) (cr : BitVec 32) : Bool := boBit bo 0 || (crBit cr bi == boBit bo 1)

/-- The target of an I-form or B-form branch (R201). -/
def branchTarget (aa : Bool) (disp cia : Word) : Word := if aa then disp else cia + disp

/-- The target of a branch to LR or CTR: the low two bits cleared (R211). -/
def registerTarget (v : Word) : Word := v &&& ~~~3#64

/-- The end of a branch: LR written only when the branch is taken and links (R209, R210), then PC. -/
def finishBranch (taken link : Bool) (target : Word) (s : State) : Result :=
  if taken then .next { s with lr := if link then some (s.pc + 4#64) else s.lr, pc := target }
  else .next s.advance

/-- The shared step BC_STEP (R227): CTR decremented and tested, the target read from the old LR or CTR, then LR and PC
written. Every register is read before any is written, so an unset one faults with no effect. -/
def bcStep (bo bi : BitVec 5) (link : Bool) (target : Option Word) (s : State) : Result :=
  if branchAlways bo then withOperand target fun t => finishBranch true link t s
  else if ctrDecrements bo then
    withOperand s.ctr fun c => withOperand target fun t =>
      finishBranch (ctrTest bo (c - 1#64) && condTest bo bi s.cr) link t { s with ctr := some (c - 1#64) }
  else withOperand target fun t => finishBranch (condTest bo bi s.cr) link t s

/-- A B-form branch (R219 to R222). -/
def branchB (aa link : Bool) (bo bi : BitVec 5) (bd : BitVec 14) (s : State) : Result :=
  bcStep bo bi link (some (branchTarget aa (dispBD bd) s.pc)) s

/-- A branch to LR (R223, R224): LR is read whether or not the branch is taken. -/
def branchToLR (link : Bool) (bo bi : BitVec 5) (s : State) : Result :=
  bcStep bo bi link (s.lr.map registerTarget) s

/-- A branch to CTR (R225, R226): refused when BO2 = 0 (R214), before any register is read. -/
def branchToCTR (link : Bool) (bo bi : BitVec 5) (s : State) : Result :=
  if ctrDecrements bo then refuse .bcctrDecrement else bcStep bo bi link (s.ctr.map registerTarget) s

/-- `b target` (R215). -/
def execB (li : BitVec 24) (s : State) : Result := finishBranch true false (branchTarget false (dispLI li) s.pc) s
/-- `ba target` (R216). -/
def execBa (li : BitVec 24) (s : State) : Result := finishBranch true false (branchTarget true (dispLI li) s.pc) s
/-- `bl target` (R217). -/
def execBl (li : BitVec 24) (s : State) : Result := finishBranch true true (branchTarget false (dispLI li) s.pc) s
/-- `bla target` (R218). -/
def execBla (li : BitVec 24) (s : State) : Result := finishBranch true true (branchTarget true (dispLI li) s.pc) s
/-- `bc BO, BI, target` (R219). -/
def execBc (bo bi : BitVec 5) (bd : BitVec 14) (s : State) : Result := branchB false false bo bi bd s
/-- `bca BO, BI, target` (R220). -/
def execBca (bo bi : BitVec 5) (bd : BitVec 14) (s : State) : Result := branchB true false bo bi bd s
/-- `bcl BO, BI, target` (R221). -/
def execBcl (bo bi : BitVec 5) (bd : BitVec 14) (s : State) : Result := branchB false true bo bi bd s
/-- `bcla BO, BI, target` (R222). -/
def execBcla (bo bi : BitVec 5) (bd : BitVec 14) (s : State) : Result := branchB true true bo bi bd s
/-- `bclr BO, BI, BH` (R223); BH is a hint (R213). -/
def execBclr (bo bi : BitVec 5) (_bh : BitVec 2) (s : State) : Result := branchToLR false bo bi s
/-- `bclrl BO, BI, BH` (R224): the target is the old LR. -/
def execBclrl (bo bi : BitVec 5) (_bh : BitVec 2) (s : State) : Result := branchToLR true bo bi s
/-- `bcctr BO, BI, BH` (R225). -/
def execBcctr (bo bi : BitVec 5) (_bh : BitVec 2) (s : State) : Result := branchToCTR false bo bi s
/-- `bcctrl BO, BI, BH` (R226). -/
def execBcctrl (bo bi : BitVec 5) (_bh : BitVec 2) (s : State) : Result := branchToCTR true bo bi s

end Sys2Proof.Machine
end

