-- ==== Sys2Proof/Machine/CompareLogical.lean ====
section
/-! DEFINITION. The compare, logical, extend and count instructions (44_compare_logical.md R400 to R426). -/

namespace Sys2Proof.Machine

/-! ### Compares (R400): they write CRF[BF] only -/

/-- `cmp BF, L, RA, RB` (R401): signed; L = 0 compares the sign-extended low words. -/
def execCmp (bf : BitVec 3) (l : Bool) (ra rb : Reg) (s : State) : Result :=
  withOperand (s.readGpr ra) fun a => withOperand (s.readGpr rb) fun b =>
    .next (s.compareResult bf (compareInt (signedOperand l a) (signedOperand l b))).advance
/-- `cmpi BF, L, RA, SI` (R402): b is `sext_16(SI)`. -/
def execCmpi (bf : BitVec 3) (l : Bool) (ra : Reg) (si : BitVec 16) (s : State) : Result :=
  withOperand (s.readGpr ra) fun a =>
    .next (s.compareResult bf (compareInt (signedOperand l a) (sext si).toInt)).advance
/-- `cmpl BF, L, RA, RB` (R403): unsigned; L = 0 compares the zero-extended low words. -/
def execCmpl (bf : BitVec 3) (l : Bool) (ra rb : Reg) (s : State) : Result :=
  withOperand (s.readGpr ra) fun a => withOperand (s.readGpr rb) fun b =>
    .next (s.compareResult bf (compareInt (unsignedOperand l a) (unsignedOperand l b))).advance
/-- `cmpli BF, L, RA, UI` (R404): b is `zext_16(UI)`. -/
def execCmpli (bf : BitVec 3) (l : Bool) (ra : Reg) (ui : BitVec 16) (s : State) : Result :=
  withOperand (s.readGpr ra) fun a =>
    .next (s.compareResult bf (compareInt (unsignedOperand l a) ((zext ui).toNat : Int))).advance

/-! ### Shared operations of the logical rules -/

/-- GPR[RA] written with a function of GPR[RS], recorded when Rc = 1 (R426). -/
def logical1 (f : Word → Word) (rs ra : Reg) (rc : Bool) (s : State) : Result :=
  withOperand (s.readGpr rs) fun a => .next ((s.setGpr ra (f a)).recordIf rc (f a)).advance

/-- GPR[RA] written with a function of GPR[RS] and GPR[RB], recorded when Rc = 1 (R426). -/
def logical2 (f : Word → Word → Word) (rs ra rb : Reg) (rc : Bool) (s : State) : Result :=
  withOperand (s.readGpr rs) fun a => withOperand (s.readGpr rb) fun b =>
    .next ((s.setGpr ra (f a b)).recordIf rc (f a b)).advance

/-! ### Logical immediates -/

/-- `nop` (R408): GPR[0] is not read. -/
def execNop (s : State) : Result := .next s.advance
/-- `andi. RA, RS, UI` (R405): always records. -/
def execAndiRc (rs ra : Reg) (ui : BitVec 16) (s : State) : Result :=
  logical1 (fun a => a &&& zext ui) rs ra true s
/-- `andis. RA, RS, UI` (R406): always records. -/
def execAndisRc (rs ra : Reg) (ui : BitVec 16) (s : State) : Result :=
  logical1 (fun a => a &&& uiShifted ui) rs ra true s
/-- `ori RA, RS, UI` (R407). -/
def execOri (rs ra : Reg) (ui : BitVec 16) (s : State) : Result :=
  logical1 (fun a => a ||| zext ui) rs ra false s
/-- `oris RA, RS, UI` (R409). -/
def execOris (rs ra : Reg) (ui : BitVec 16) (s : State) : Result :=
  logical1 (fun a => a ||| uiShifted ui) rs ra false s
/-- `xori RA, RS, UI` (R410). -/
def execXori (rs ra : Reg) (ui : BitVec 16) (s : State) : Result :=
  logical1 (fun a => a ^^^ zext ui) rs ra false s
/-- `xoris RA, RS, UI` (R411). -/
def execXoris (rs ra : Reg) (ui : BitVec 16) (s : State) : Result :=
  logical1 (fun a => a ^^^ uiShifted ui) rs ra false s

/-! ### Logical register forms -/

/-- `and RA, RS, RB` (R412). -/
def execAnd (rs ra rb : Reg) (rc : Bool) (s : State) : Result := logical2 (fun a b => a &&& b) rs ra rb rc s
/-- `andc RA, RS, RB` (R413). -/
def execAndc (rs ra rb : Reg) (rc : Bool) (s : State) : Result := logical2 (fun a b => a &&& ~~~b) rs ra rb rc s
/-- `or RA, RS, RB` (R414). -/
def execOr (rs ra rb : Reg) (rc : Bool) (s : State) : Result := logical2 (fun a b => a ||| b) rs ra rb rc s
/-- `orc RA, RS, RB` (R416). -/
def execOrc (rs ra rb : Reg) (rc : Bool) (s : State) : Result := logical2 (fun a b => a ||| ~~~b) rs ra rb rc s
/-- `xor RA, RS, RB` (R417). -/
def execXor (rs ra rb : Reg) (rc : Bool) (s : State) : Result := logical2 (fun a b => a ^^^ b) rs ra rb rc s
/-- `nand RA, RS, RB` (R418). -/
def execNand (rs ra rb : Reg) (rc : Bool) (s : State) : Result := logical2 (fun a b => ~~~(a &&& b)) rs ra rb rc s
/-- `nor RA, RS, RB` (R419). -/
def execNor (rs ra rb : Reg) (rc : Bool) (s : State) : Result := logical2 (fun a b => ~~~(a ||| b)) rs ra rb rc s
/-- `eqv RA, RS, RB` (R420). -/
def execEqv (rs ra rb : Reg) (rc : Bool) (s : State) : Result := logical2 (fun a b => ~~~(a ^^^ b)) rs ra rb rc s
/-- `mr RA, RS` (R415). -/
def execMr (rs ra : Reg) (rc : Bool) (s : State) : Result := logical1 (fun a => a) rs ra rc s

/-! ### Extend and count -/

/-- `extsb RA, RS` (R421). -/
def execExtsb (rs ra : Reg) (rc : Bool) (s : State) : Result :=
  logical1 (fun a => sext (a.setWidth 8)) rs ra rc s
/-- `extsh RA, RS` (R422). -/
def execExtsh (rs ra : Reg) (rc : Bool) (s : State) : Result :=
  logical1 (fun a => sext (a.setWidth 16)) rs ra rc s
/-- `extsw RA, RS` (R423). -/
def execExtsw (rs ra : Reg) (rc : Bool) (s : State) : Result :=
  logical1 (fun a => sext (lowWord a)) rs ra rc s
/-- `cntlzw RA, RS` (R424). -/
def execCntlzw (rs ra : Reg) (rc : Bool) (s : State) : Result :=
  logical1 (fun a => BitVec.ofNat 64 (countLeadingZeros (lowWord a))) rs ra rc s
/-- `cntlzd RA, RS` (R425). -/
def execCntlzd (rs ra : Reg) (rc : Bool) (s : State) : Result :=
  logical1 (fun a => BitVec.ofNat 64 (countLeadingZeros a)) rs ra rc s

end Sys2Proof.Machine
end

