-- ==== Sys2Proof/Machine/CondReg.lean ====
section
/-! DEFINITION. The condition-register instructions (41_cr.md R250 to R264). Every CR write here is an explicit
overwrite, never a sticky OR (R264). -/

namespace Sys2Proof.Machine

/-- `CR[BT] <- op(CR[BA], CR[BB])` (R250): the inputs are read before the single bit is written. -/
def crLogical (op : Bool → Bool → Bool) (bt ba bb : BitVec 5) (s : State) : Result :=
  .next { s with cr := setCrBit s.cr bt (op (crBit s.cr ba) (crBit s.cr bb)) }.advance

/-- `crand` (R251). -/
def execCrand (bt ba bb : BitVec 5) (s : State) : Result := crLogical (fun a b => a && b) bt ba bb s
/-- `crnand` (R252). -/
def execCrnand (bt ba bb : BitVec 5) (s : State) : Result := crLogical (fun a b => !(a && b)) bt ba bb s
/-- `cror` (R253). -/
def execCror (bt ba bb : BitVec 5) (s : State) : Result := crLogical (fun a b => a || b) bt ba bb s
/-- `crxor` (R254). -/
def execCrxor (bt ba bb : BitVec 5) (s : State) : Result := crLogical (fun a b => a ^^ b) bt ba bb s
/-- `crnor` (R255). -/
def execCrnor (bt ba bb : BitVec 5) (s : State) : Result := crLogical (fun a b => !(a || b)) bt ba bb s
/-- `creqv` (R256). -/
def execCreqv (bt ba bb : BitVec 5) (s : State) : Result := crLogical (fun a b => !(a ^^ b)) bt ba bb s
/-- `crandc` (R257). -/
def execCrandc (bt ba bb : BitVec 5) (s : State) : Result := crLogical (fun a b => a && !b) bt ba bb s
/-- `crorc` (R258). -/
def execCrorc (bt ba bb : BitVec 5) (s : State) : Result := crLogical (fun a b => a || !b) bt ba bb s

/-- `mcrf BF, BFA` (R259): all four bits overwritten, SO included. -/
def execMcrf (bf bfa : BitVec 3) (s : State) : Result :=
  .next { s with cr := setCrField s.cr bf (crField s.cr bfa) }.advance

/-- `mfcr RT` (R260): `GPR[RT] <- 0^32 || CR`. -/
def execMfcr (rt : Reg) (s : State) : Result := .next (s.setGpr rt (zext s.cr)).advance

/-- `mfocrf RT, FXM` (R261): the selected field at its place with every other bit a draw; a whole draw when FXM is not
one-hot. -/
def execMfocrf (rt : Reg) (fxm : BitVec 8) (s : State) : Result :=
  match fxmOneHot fxm with
  | some f =>
    let shift := 28 - 4 * f.toNat
    let v := (s.draw 64 &&& ~~~(0xF#64 <<< shift)) ||| (zext (crField s.cr f) <<< shift)
    .next (s.drawn.setGpr rt v).advance
  | none => .next (s.drawn.setGpr rt (s.draw 64)).advance

/-- `mtcrf FXM, RS` (R262): the selected fields overwritten from RS[31:0]. -/
def execMtcrf (rs : Reg) (fxm : BitVec 8) (s : State) : Result :=
  withOperand (s.readGpr rs) fun v => .next { s with cr := moveToFields s.cr fxm v }.advance

/-- `mtocrf FXM, RS` (R263): as mtcrf for a one-hot FXM; otherwise `CR <- draw_32` (assumption log 15). -/
def execMtocrf (rs : Reg) (fxm : BitVec 8) (s : State) : Result :=
  withOperand (s.readGpr rs) fun v =>
    match fxmOneHot fxm with
    | some f => .next { s with cr := setCrField s.cr f (sourceField v f) }.advance
    | none => .next { s.drawn with cr := s.draw 32 }.advance

end Sys2Proof.Machine
end

