-- ==== Sys2Proof/Machine/Load.lean ====
section
/-! DEFINITION. The loads (42_load_store.md R280 to R314). -/

namespace Sys2Proof.Machine

/-- How a load makes 64 bits of the n bytes it read (42 R283, 20_memory.md R74): "z", "s", and the byte-reversed "z".
A doubleword has no extension: "z" leaves all 64 bits. -/
inductive LoadMode where
  | zero
  | algebraic
  | reversed
deriving DecidableEq, Repr

/-- The value a load of n bytes at `ea` writes to RT (R72, R74, R283). -/
def loadValue (mode : LoadMode) (n : Nat) (m : Memory) (ea : Word) : Word :=
  match mode with
  | .zero => zext (memRead m ea n)
  | .algebraic => sext (memRead m ea n)
  | .reversed => zext (byteRev n (memRead m ea n))

/-- The load sequence (R281): address operands, alignment, admission, the read, RT. -/
def load (mode : LoadMode) (n : Nat) (ea : Option Word) (rt : Reg) (s : State) : Result :=
  withOperand ea fun a =>
    withAccess .read a n s (.next (s.setGpr rt (loadValue mode n s.mem a)).advance)

/-- The load sequence of an update form (R281): RT, then `GPR[RA] <- EA`. -/
def loadUpdate (mode : LoadMode) (n : Nat) (ea : Option Word) (rt ra : Reg) (s : State) : Result :=
  withOperand ea fun a =>
    withAccess .read a n s (.next ((s.setGpr rt (loadValue mode n s.mem a)).setGpr ra a).advance)

/-- `lbz RT, D(RA)` (R290). -/
def execLbz (rt ra : Reg) (d : BitVec 16) (s : State) : Result := load .zero 1 (eaD ra d s) rt s
/-- `lbzu RT, D(RA)` (R291). -/
def execLbzu (rt ra : Reg) (d : BitVec 16) (s : State) : Result := loadUpdate .zero 1 (eaDUpdate ra d s) rt ra s
/-- `lbzx RT, RA, RB` (R292). -/
def execLbzx (rt ra rb : Reg) (s : State) : Result := load .zero 1 (eaX ra rb s) rt s
/-- `lbzux RT, RA, RB` (R293). -/
def execLbzux (rt ra rb : Reg) (s : State) : Result := loadUpdate .zero 1 (eaXUpdate ra rb s) rt ra s
/-- `lhz RT, D(RA)` (R294). -/
def execLhz (rt ra : Reg) (d : BitVec 16) (s : State) : Result := load .zero 2 (eaD ra d s) rt s
/-- `lhzu RT, D(RA)` (R295). -/
def execLhzu (rt ra : Reg) (d : BitVec 16) (s : State) : Result := loadUpdate .zero 2 (eaDUpdate ra d s) rt ra s
/-- `lhzx RT, RA, RB` (R296). -/
def execLhzx (rt ra rb : Reg) (s : State) : Result := load .zero 2 (eaX ra rb s) rt s
/-- `lhzux RT, RA, RB` (R297). -/
def execLhzux (rt ra rb : Reg) (s : State) : Result := loadUpdate .zero 2 (eaXUpdate ra rb s) rt ra s
/-- `lha RT, D(RA)` (R298). -/
def execLha (rt ra : Reg) (d : BitVec 16) (s : State) : Result := load .algebraic 2 (eaD ra d s) rt s
/-- `lhau RT, D(RA)` (R299). -/
def execLhau (rt ra : Reg) (d : BitVec 16) (s : State) : Result := loadUpdate .algebraic 2 (eaDUpdate ra d s) rt ra s
/-- `lhax RT, RA, RB` (R300). -/
def execLhax (rt ra rb : Reg) (s : State) : Result := load .algebraic 2 (eaX ra rb s) rt s
/-- `lhaux RT, RA, RB` (R301). -/
def execLhaux (rt ra rb : Reg) (s : State) : Result := loadUpdate .algebraic 2 (eaXUpdate ra rb s) rt ra s
/-- `lwz RT, D(RA)` (R302). -/
def execLwz (rt ra : Reg) (d : BitVec 16) (s : State) : Result := load .zero 4 (eaD ra d s) rt s
/-- `lwzu RT, D(RA)` (R303). -/
def execLwzu (rt ra : Reg) (d : BitVec 16) (s : State) : Result := loadUpdate .zero 4 (eaDUpdate ra d s) rt ra s
/-- `lwzx RT, RA, RB` (R304). -/
def execLwzx (rt ra rb : Reg) (s : State) : Result := load .zero 4 (eaX ra rb s) rt s
/-- `lwzux RT, RA, RB` (R305). -/
def execLwzux (rt ra rb : Reg) (s : State) : Result := loadUpdate .zero 4 (eaXUpdate ra rb s) rt ra s
/-- `lwa RT, DS(RA)` (R306). -/
def execLwa (rt ra : Reg) (ds : BitVec 14) (s : State) : Result := load .algebraic 4 (eaDS ra ds s) rt s
/-- `lwax RT, RA, RB` (R307). -/
def execLwax (rt ra rb : Reg) (s : State) : Result := load .algebraic 4 (eaX ra rb s) rt s
/-- `lwaux RT, RA, RB` (R308). -/
def execLwaux (rt ra rb : Reg) (s : State) : Result := loadUpdate .algebraic 4 (eaXUpdate ra rb s) rt ra s
/-- `ld RT, DS(RA)` (R309). -/
def execLd (rt ra : Reg) (ds : BitVec 14) (s : State) : Result := load .zero 8 (eaDS ra ds s) rt s
/-- `ldu RT, DS(RA)` (R310). -/
def execLdu (rt ra : Reg) (ds : BitVec 14) (s : State) : Result := loadUpdate .zero 8 (eaDSUpdate ra ds s) rt ra s
/-- `ldx RT, RA, RB` (R311). -/
def execLdx (rt ra rb : Reg) (s : State) : Result := load .zero 8 (eaX ra rb s) rt s
/-- `ldux RT, RA, RB` (R312). -/
def execLdux (rt ra rb : Reg) (s : State) : Result := loadUpdate .zero 8 (eaXUpdate ra rb s) rt ra s
/-- `lhbrx RT, RA, RB` (R313). -/
def execLhbrx (rt ra rb : Reg) (s : State) : Result := load .reversed 2 (eaX ra rb s) rt s
/-- `lwbrx RT, RA, RB` (R314). -/
def execLwbrx (rt ra rb : Reg) (s : State) : Result := load .reversed 4 (eaX ra rb s) rt s

end Sys2Proof.Machine
end

