-- ==== Sys2Proof/Machine/RotateShift.lean ====
section
/-! DEFINITION. The rotate and shift instructions (45_rotate_shift.md R450 to R467). -/

namespace Sys2Proof.Machine

open Sys2Proof.Config

/-! ### Shared operations -/

/-- The end of every rule of the file: RA, the record request, PC (R450). -/
def finishRotate (ra : Reg) (rc : Bool) (res : Word) (s : State) : Result :=
  .next ((s.setGpr ra res).recordIf rc res).advance

/-- The end of a shift-algebraic rule: RA, the carry request, the record request, PC (R450). -/
def finishAlgebraic (ra : Reg) (rc carry : Bool) (res : Word) (s : State) : Result :=
  .next (((s.setGpr ra res).writeCarry carry).recordIf rc res).advance

/-- The 6-bit shift amount `RB[5:0]` of the word shifts and the doubleword rotates. -/
def shift6 (b : Word) : Nat := (b.extractLsb' 0 6).toNat
/-- The 7-bit shift amount `RB[6:0]` of the doubleword shifts. -/
def shift7 (b : Word) : Nat := (b.extractLsb' 0 7).toNat

/-! ### 32-bit rotates (M form) -/

/-- `rlwinm RA, RS, SH, MB, ME` (R451). -/
def execRlwinm (rs ra : Reg) (sh mb me : BitVec 5) (rc : Bool) (s : State) : Result :=
  withOperand (s.readGpr rs) fun a => finishRotate ra rc (rotl32 a sh.toNat &&& wordMask mb me) s
/-- `rlwnm RA, RS, RB, MB, ME` (R452): only RB[4:0] counts. -/
def execRlwnm (rs ra rb : Reg) (mb me : BitVec 5) (rc : Bool) (s : State) : Result :=
  withOperand (s.readGpr rs) fun a => withOperand (s.readGpr rb) fun b =>
    finishRotate ra rc (rotl32 a (b.extractLsb' 0 5).toNat &&& wordMask mb me) s
/-- `rlwimi RA, RS, SH, MB, ME` (R453): the old RA is an input. -/
def execRlwimi (rs ra : Reg) (sh mb me : BitVec 5) (rc : Bool) (s : State) : Result :=
  withOperand (s.readGpr rs) fun a => withOperand (s.readGpr ra) fun old =>
    finishRotate ra rc (insertUnder (wordMask mb me) (rotl32 a sh.toNat) old) s

/-! ### 64-bit rotates (MD and MDS forms) -/

/-- `rldicl RA, RS, SH, MB` (R454). -/
def execRldicl (rs ra : Reg) (sh mb : BitVec 6) (rc : Bool) (s : State) : Result :=
  withOperand (s.readGpr rs) fun a => finishRotate ra rc (rotl64 a sh.toNat &&& rotateMask mb.toNat 63) s
/-- `rldicr RA, RS, SH, ME` (R455). -/
def execRldicr (rs ra : Reg) (sh me : BitVec 6) (rc : Bool) (s : State) : Result :=
  withOperand (s.readGpr rs) fun a => finishRotate ra rc (rotl64 a sh.toNat &&& rotateMask 0 me.toNat) s
/-- `rldic RA, RS, SH, MB` (R456). -/
def execRldic (rs ra : Reg) (sh mb : BitVec 6) (rc : Bool) (s : State) : Result :=
  withOperand (s.readGpr rs) fun a =>
    finishRotate ra rc (rotl64 a sh.toNat &&& rotateMask mb.toNat (63 - sh.toNat)) s
/-- `rldimi RA, RS, SH, MB` (R457): the old RA is an input. -/
def execRldimi (rs ra : Reg) (sh mb : BitVec 6) (rc : Bool) (s : State) : Result :=
  withOperand (s.readGpr rs) fun a => withOperand (s.readGpr ra) fun old =>
    finishRotate ra rc (insertUnder (rotateMask mb.toNat (63 - sh.toNat)) (rotl64 a sh.toNat) old) s
/-- `rldcl RA, RS, RB, MB` (R458). -/
def execRldcl (rs ra rb : Reg) (mb : BitVec 6) (rc : Bool) (s : State) : Result :=
  withOperand (s.readGpr rs) fun a => withOperand (s.readGpr rb) fun b =>
    finishRotate ra rc (rotl64 a (shift6 b) &&& rotateMask mb.toNat 63) s

/-- The shift amount of rldcr (R459): the 6-bit split field (its W[1] is 1 in every rldcr word), the RB field number, or
GPR[RB][5:0], by `RLDCR_SHIFT`; only the last reads GPR[RB]. -/
def rldcrShift (rb : Reg) (s : State) : Option Nat :=
  match s.params.rldcrShift with
  | .field6 => some ((1#1 ++ rb).toNat)
  | .field5 => some rb.toNat
  | .register => (s.readGpr rb).map shift6

/-- `rldcr RA, RS, RB, ME` (R459). -/
def execRldcr (rs ra rb : Reg) (me : BitVec 6) (rc : Bool) (s : State) : Result :=
  withOperand (s.readGpr rs) fun a => withOperand (rldcrShift rb s) fun n =>
    finishRotate ra rc (rotl64 a n &&& rotateMask 0 me.toNat) s

/-! ### Shifts (X and XS forms) -/

/-- `slw RA, RS, RB` (R460): a shift of 32 to 63 gives 0. -/
def execSlw (rs ra rb : Reg) (rc : Bool) (s : State) : Result :=
  withOperand (s.readGpr rs) fun a => withOperand (s.readGpr rb) fun b =>
    finishRotate ra rc (zext (if shift6 b < 32 then lowWord a <<< shift6 b else 0#32)) s
/-- `srw RA, RS, RB` (R461). -/
def execSrw (rs ra rb : Reg) (rc : Bool) (s : State) : Result :=
  withOperand (s.readGpr rs) fun a => withOperand (s.readGpr rb) fun b =>
    finishRotate ra rc (zext (if shift6 b < 32 then lowWord a >>> shift6 b else 0#32)) s
/-- `sraw RA, RS, RB` (R462): a shift of 32 to 63 gives the sign in every bit. -/
def execSraw (rs ra rb : Reg) (rc : Bool) (s : State) : Result :=
  withOperand (s.readGpr rs) fun a => withOperand (s.readGpr rb) fun b =>
    let n := shift6 b
    let res := if n < 32 then (sext (lowWord a)).sshiftRight n
      else if (lowWord a).msb then BitVec.allOnes 64 else 0#64
    finishAlgebraic ra rc (shiftCarry (lowWord a).msb (lowWord a).toNat n) res s
/-- `srawi RA, RS, SH` (R463). -/
def execSrawi (rs ra : Reg) (sh : BitVec 5) (rc : Bool) (s : State) : Result :=
  withOperand (s.readGpr rs) fun a =>
    finishAlgebraic ra rc (shiftCarry (lowWord a).msb (lowWord a).toNat sh.toNat)
      ((sext (lowWord a)).sshiftRight sh.toNat) s
/-- `sld RA, RS, RB` (R464): a shift of 64 to 127 gives 0. -/
def execSld (rs ra rb : Reg) (rc : Bool) (s : State) : Result :=
  withOperand (s.readGpr rs) fun a => withOperand (s.readGpr rb) fun b =>
    finishRotate ra rc (if shift7 b < 64 then a <<< shift7 b else 0#64) s
/-- `srd RA, RS, RB` (R465). -/
def execSrd (rs ra rb : Reg) (rc : Bool) (s : State) : Result :=
  withOperand (s.readGpr rs) fun a => withOperand (s.readGpr rb) fun b =>
    finishRotate ra rc (if shift7 b < 64 then a >>> shift7 b else 0#64) s
/-- `srad RA, RS, RB` (R466): a shift of 64 to 127 gives the sign in every bit. -/
def execSrad (rs ra rb : Reg) (rc : Bool) (s : State) : Result :=
  withOperand (s.readGpr rs) fun a => withOperand (s.readGpr rb) fun b =>
    let n := shift7 b
    let res := if n < 64 then a.sshiftRight n else if a.msb then BitVec.allOnes 64 else 0#64
    finishAlgebraic ra rc (shiftCarry a.msb a.toNat n) res s
/-- `sradi RA, RS, SH` (R467). -/
def execSradi (rs ra : Reg) (sh : BitVec 6) (rc : Bool) (s : State) : Result :=
  withOperand (s.readGpr rs) fun a =>
    finishAlgebraic ra rc (shiftCarry a.msb a.toNat sh.toNat) (a.sshiftRight sh.toNat) s

end Sys2Proof.Machine
end

