-- ==== Sys2Proof/Machine/Store.lean ====
section
/-! DEFINITION. The stores (42_load_store.md R282, R320 to R337). -/

namespace Sys2Proof.Machine

/-- The 8n-bit value a store of n bytes writes: the low 8n bits of RS, or their byte reversal (R282, 20_memory.md
R74, R78). -/
def storeValue (reversed : Bool) (n : Nat) (v : Word) : BitVec (8 * n) :=
  if reversed then byteRev n (v.setWidth (8 * n)) else v.setWidth (8 * n)

/-- The store sequence (R282): address operands and RS, alignment, admission, the write. -/
def store (reversed : Bool) (n : Nat) (ea : Option Word) (rs : Reg) (s : State) : Result :=
  withOperand ea fun a => withOperand (s.readGpr rs) fun v =>
    withAccess .write a n s (.next (s.store a n (storeValue reversed n v)).advance)

/-- The store sequence of an update form (R282): the old RS is stored, then `GPR[RA] <- EA`. -/
def storeUpdate (n : Nat) (ea : Option Word) (rs ra : Reg) (s : State) : Result :=
  withOperand ea fun a => withOperand (s.readGpr rs) fun v =>
    withAccess .write a n s (.next ((s.store a n (storeValue false n v)).setGpr ra a).advance)

/-- `stb RS, D(RA)` (R320). -/
def execStb (rs ra : Reg) (d : BitVec 16) (s : State) : Result := store false 1 (eaD ra d s) rs s
/-- `stbu RS, D(RA)` (R321). -/
def execStbu (rs ra : Reg) (d : BitVec 16) (s : State) : Result := storeUpdate 1 (eaDUpdate ra d s) rs ra s
/-- `stbx RS, RA, RB` (R322). -/
def execStbx (rs ra rb : Reg) (s : State) : Result := store false 1 (eaX ra rb s) rs s
/-- `stbux RS, RA, RB` (R323). -/
def execStbux (rs ra rb : Reg) (s : State) : Result := storeUpdate 1 (eaXUpdate ra rb s) rs ra s
/-- `sth RS, D(RA)` (R324). -/
def execSth (rs ra : Reg) (d : BitVec 16) (s : State) : Result := store false 2 (eaD ra d s) rs s
/-- `sthu RS, D(RA)` (R325). -/
def execSthu (rs ra : Reg) (d : BitVec 16) (s : State) : Result := storeUpdate 2 (eaDUpdate ra d s) rs ra s
/-- `sthx RS, RA, RB` (R326). -/
def execSthx (rs ra rb : Reg) (s : State) : Result := store false 2 (eaX ra rb s) rs s
/-- `sthux RS, RA, RB` (R327). -/
def execSthux (rs ra rb : Reg) (s : State) : Result := storeUpdate 2 (eaXUpdate ra rb s) rs ra s
/-- `stw RS, D(RA)` (R328). -/
def execStw (rs ra : Reg) (d : BitVec 16) (s : State) : Result := store false 4 (eaD ra d s) rs s
/-- `stwu RS, D(RA)` (R329). -/
def execStwu (rs ra : Reg) (d : BitVec 16) (s : State) : Result := storeUpdate 4 (eaDUpdate ra d s) rs ra s
/-- `stwx RS, RA, RB` (R330). -/
def execStwx (rs ra rb : Reg) (s : State) : Result := store false 4 (eaX ra rb s) rs s
/-- `stwux RS, RA, RB` (R331). -/
def execStwux (rs ra rb : Reg) (s : State) : Result := storeUpdate 4 (eaXUpdate ra rb s) rs ra s
/-- `std RS, DS(RA)` (R332). -/
def execStd (rs ra : Reg) (ds : BitVec 14) (s : State) : Result := store false 8 (eaDS ra ds s) rs s
/-- `stdu RS, DS(RA)` (R333). -/
def execStdu (rs ra : Reg) (ds : BitVec 14) (s : State) : Result := storeUpdate 8 (eaDSUpdate ra ds s) rs ra s
/-- `stdx RS, RA, RB` (R334). -/
def execStdx (rs ra rb : Reg) (s : State) : Result := store false 8 (eaX ra rb s) rs s
/-- `stdux RS, RA, RB` (R335). -/
def execStdux (rs ra rb : Reg) (s : State) : Result := storeUpdate 8 (eaXUpdate ra rb s) rs ra s
/-- `sthbrx RS, RA, RB` (R336). -/
def execSthbrx (rs ra rb : Reg) (s : State) : Result := store true 2 (eaX ra rb s) rs s
/-- `stwbrx RS, RA, RB` (R337). -/
def execStwbrx (rs ra rb : Reg) (s : State) : Result := store true 4 (eaX ra rb s) rs s

end Sys2Proof.Machine
end

