-- ==== Sys2Proof/Machine/System.lean ====
section
/-! DEFINITION. Special-register moves, intrinsics, traps and the system call (46_system.md R500 to R545), and the two
kinds of word that have no operation of their own: reserved and passthrough (30_encoding.md R129, R131). -/

namespace Sys2Proof.Machine

/-! ### Special-purpose registers -/

/-- `mfspr RT, SPR` (R502): LR and CTR, XER and the time base with draws, every other number refused. -/
def execMfspr (rt : Reg) (spr : BitVec 10) (s : State) : Result :=
  match s.readSpr spr with
  | .refusedNumber => refuse (.unmodelledSPR spr)
  | .drawn v => .next (s.drawn.setGpr rt v).advance
  | .value o => withOperand o fun v => .next (s.setGpr rt v).advance

/-- `mtspr SPR, RS` (R503): the refusal of a number is taken before RS is read (60 R602). -/
def execMtspr (rs : Reg) (spr : BitVec 10) (s : State) : Result :=
  match s.writeSpr spr with
  | none => refuse (.unmodelledSPR spr)
  | some write => withOperand (s.readGpr rs) fun v => .next (write v).advance

/-! ### Intrinsics (R505 to R507) -/

/-- The intrinsics (R507), in the order of their identifiers. -/
inductive Intrinsic where
  | sync
  | eieio
  | isync
  | dcbt
  | dcbtst
  | dcbst
  | dcbf
  | icbi
  | dcbz
  | tlbie
  | tlbiel
  | tlbia
  | tlbsync
  | slbmte
  | slbie
  | slbia
  | slbmfev
  | slbmfee
  | lwarx
  | ldarx
  | stwcx
  | stdcx
  | mfmsr
  | mtmsr
  | mtmsrd
  | rfid
  | hrfid
  | mftb
  | sc
  | tw
  | twi
  | td
  | tdi
deriving DecidableEq, Repr

/-- The identifier of an intrinsic (R507). -/
def Intrinsic.ident : Intrinsic → Nat
  | .sync => 0
  | .eieio => 1
  | .isync => 2
  | .dcbt => 3
  | .dcbtst => 4
  | .dcbst => 5
  | .dcbf => 6
  | .icbi => 7
  | .dcbz => 8
  | .tlbie => 9
  | .tlbiel => 10
  | .tlbia => 11
  | .tlbsync => 12
  | .slbmte => 13
  | .slbie => 14
  | .slbia => 15
  | .slbmfev => 16
  | .slbmfee => 17
  | .lwarx => 18
  | .ldarx => 19
  | .stwcx => 20
  | .stdcx => 21
  | .mfmsr => 22
  | .mtmsr => 23
  | .mtmsrd => 24
  | .rfid => 25
  | .hrfid => 26
  | .mftb => 27
  | .sc => 28
  | .tw => 29
  | .twi => 30
  | .td => 31
  | .tdi => 32

/-- Class no-op (R506): `PC <- CIA + 4`, nothing else; no register is read and no address is checked. -/
def intrinsicNoop (s : State) : Result := .next s.advance

/-- Class refused (R506): no state changes, and no register is read. -/
def intrinsicRefused (op : Intrinsic) (_s : State) : Result := refuse (.unmodelled op.ident)

/-- Class trap-conditional (R506, R531). -/
def trapIf (toBits : BitVec 5) (double : Bool) (a b : Word) (s : State) : Result :=
  if trapCondition toBits double a b then raise (.trapTaken s.pc) else .next s.advance

/-- `sync L` (R510): no-op for every L. -/
def execSync (_l : BitVec 2) (s : State) : Result := intrinsicNoop s
/-- `eieio` (R511): no-op. -/
def execEieio (s : State) : Result := intrinsicNoop s
/-- `isync` (R512): no-op; it does not lift 20_memory.md R87. -/
def execIsync (s : State) : Result := intrinsicNoop s
/-- `dcbt RA, RB` (R513): no-op. -/
def execDcbt (_ra _rb : Reg) (s : State) : Result := intrinsicNoop s
/-- `dcbtst RA, RB` (R514): no-op. -/
def execDcbtst (_ra _rb : Reg) (s : State) : Result := intrinsicNoop s
/-- `dcbst RA, RB` (R515): no-op. -/
def execDcbst (_ra _rb : Reg) (s : State) : Result := intrinsicNoop s
/-- `dcbf RA, RB` (R516): no-op. -/
def execDcbf (_ra _rb : Reg) (s : State) : Result := intrinsicNoop s
/-- `icbi RA, RB` (R517): no-op. -/
def execIcbi (_ra _rb : Reg) (s : State) : Result := intrinsicNoop s
/-- `dcbz RA, RB` (R518): refused. -/
def execDcbz (_ra _rb : Reg) (s : State) : Result := intrinsicRefused .dcbz s
/-- `tlbie RB` (R519): refused. -/
def execTlbie (_rb : Reg) (s : State) : Result := intrinsicRefused .tlbie s
/-- `lwarx RT, RA, RB` (R520): refused. -/
def execLwarx (_rt _ra _rb : Reg) (s : State) : Result := intrinsicRefused .lwarx s
/-- `ldarx RT, RA, RB` (R521): refused. -/
def execLdarx (_rt _ra _rb : Reg) (s : State) : Result := intrinsicRefused .ldarx s
/-- `stwcx. RS, RA, RB` (R522): refused. -/
def execStwcx (_rs _ra _rb : Reg) (s : State) : Result := intrinsicRefused .stwcx s
/-- `stdcx. RS, RA, RB` (R523): refused. -/
def execStdcx (_rs _ra _rb : Reg) (s : State) : Result := intrinsicRefused .stdcx s
/-- `mfmsr RT` (R524): refused. -/
def execMfmsr (_rt : Reg) (s : State) : Result := intrinsicRefused .mfmsr s
/-- `mtmsr RS` (R525): refused. -/
def execMtmsr (_rs : Reg) (s : State) : Result := intrinsicRefused .mtmsr s
/-- `mtmsrd RS` (R526): refused. -/
def execMtmsrd (_rs : Reg) (s : State) : Result := intrinsicRefused .mtmsrd s
/-- `rfid` (R527): refused. -/
def execRfid (s : State) : Result := intrinsicRefused .rfid s
/-- `hrfid` (R528): refused. -/
def execHrfid (s : State) : Result := intrinsicRefused .hrfid s
/-- `tlbiel RB` (R538): refused. -/
def execTlbiel (_rb : Reg) (s : State) : Result := intrinsicRefused .tlbiel s
/-- `tlbia` (R539): refused. -/
def execTlbia (s : State) : Result := intrinsicRefused .tlbia s
/-- `tlbsync` (R540): refused. -/
def execTlbsync (s : State) : Result := intrinsicRefused .tlbsync s
/-- `slbmte RS, RB` (R541): refused. -/
def execSlbmte (_rs _rb : Reg) (s : State) : Result := intrinsicRefused .slbmte s
/-- `slbie RB` (R542): refused. -/
def execSlbie (_rb : Reg) (s : State) : Result := intrinsicRefused .slbie s
/-- `slbia` (R543): refused. -/
def execSlbia (s : State) : Result := intrinsicRefused .slbia s
/-- `slbmfev RT, RB` (R544): refused. -/
def execSlbmfev (_rt _rb : Reg) (s : State) : Result := intrinsicRefused .slbmfev s
/-- `slbmfee RT, RB` (R545): refused. -/
def execSlbmfee (_rt _rb : Reg) (s : State) : Result := intrinsicRefused .slbmfee s
/-- `mftb RT, TBR` (R529): a draw for TBR 268 and 269, with no relation between reads (60 R620); others refused. -/
def execMftb (rt : Reg) (tbr : BitVec 10) (s : State) : Result :=
  if tbr = 268#10 ∨ tbr = 269#10 then .next (s.drawn.setGpr rt (s.draw 64)).advance
  else refuse (.unmodelledSPR tbr)
/-- `sc` (R530): a terminal fault; there is no vector and no handler (60 R608, R610). -/
def execSc (lev : BitVec 7) (_s : State) : Result := raise (.systemCall lev)
/-- `tw TO, RA, RB` (R532). -/
def execTw (toBits : BitVec 5) (ra rb : Reg) (s : State) : Result :=
  withOperand (s.readGpr ra) fun a => withOperand (s.readGpr rb) fun b => trapIf toBits false a b s
/-- `twi TO, RA, SI` (R533). -/
def execTwi (toBits : BitVec 5) (ra : Reg) (si : BitVec 16) (s : State) : Result :=
  withOperand (s.readGpr ra) fun a => trapIf toBits false a (sext si) s
/-- `td TO, RA, RB` (R534). -/
def execTd (toBits : BitVec 5) (ra rb : Reg) (s : State) : Result :=
  withOperand (s.readGpr ra) fun a => withOperand (s.readGpr rb) fun b => trapIf toBits true a b s
/-- `tdi TO, RA, SI` (R535). -/
def execTdi (toBits : BitVec 5) (ra : Reg) (si : BitVec 16) (s : State) : Result :=
  withOperand (s.readGpr ra) fun a => trapIf toBits true a (sext si) s

/-! ### Words with no operation of their own -/

/-- A reserved word (30 R129): its decode fails, so the step faults with `IllegalInstruction` (60 R605). -/
def execReserved (w : InsnWord) (_s : State) : Result := raise (.illegalInstruction w)
/-- A passthrough word (30 R131): its execution is refused (60 R603). -/
def execPassthrough (_w : InsnWord) (_s : State) : Result := refuse .passthrough

end Sys2Proof.Machine
end

