-- ==== Sys2Proof/Machine/Dispatch.lean ====
section
/-! DEFINITION. What each instruction does: one arm per constructor, each a direct call of its meaning. -/

namespace Sys2Proof.Machine

def exec (i : Instr) (s : State) : Host.Outcome State Fault Refusal :=
  match i with
  | .tdi toBits ra si => Sys2Proof.Machine.execTdi toBits ra si s
  | .twi toBits ra si => Sys2Proof.Machine.execTwi toBits ra si s
  | .mulli rt ra si => Sys2Proof.Machine.execMulli rt ra si s
  | .subfic rt ra si => Sys2Proof.Machine.execSubfic rt ra si s
  | .cmpli bf l ra ui => Sys2Proof.Machine.execCmpli bf l ra ui s
  | .cmpi bf l ra si => Sys2Proof.Machine.execCmpi bf l ra si s
  | .addic rt ra si => Sys2Proof.Machine.execAddic rt ra si s
  | .addicRc rt ra si => Sys2Proof.Machine.execAddicRc rt ra si s
  | .li rt si => Sys2Proof.Machine.execLi rt si s
  | .addi rt ra si => Sys2Proof.Machine.execAddi rt ra si s
  | .lis rt si => Sys2Proof.Machine.execLis rt si s
  | .addis rt ra si => Sys2Proof.Machine.execAddis rt ra si s
  | .bc bo bi bd => Sys2Proof.Machine.execBc bo bi bd s
  | .bca bo bi bd => Sys2Proof.Machine.execBca bo bi bd s
  | .bcl bo bi bd => Sys2Proof.Machine.execBcl bo bi bd s
  | .bcla bo bi bd => Sys2Proof.Machine.execBcla bo bi bd s
  | .sc lev => Sys2Proof.Machine.execSc lev s
  | .b li => Sys2Proof.Machine.execB li s
  | .ba li => Sys2Proof.Machine.execBa li s
  | .bl li => Sys2Proof.Machine.execBl li s
  | .bla li => Sys2Proof.Machine.execBla li s
  | .rlwimi rs ra sh mb me rc => Sys2Proof.Machine.execRlwimi rs ra sh mb me rc s
  | .rlwinm rs ra sh mb me rc => Sys2Proof.Machine.execRlwinm rs ra sh mb me rc s
  | .rlwnm rs ra rb mb me rc => Sys2Proof.Machine.execRlwnm rs ra rb mb me rc s
  | .nop => Sys2Proof.Machine.execNop s
  | .ori rs ra ui => Sys2Proof.Machine.execOri rs ra ui s
  | .oris rs ra ui => Sys2Proof.Machine.execOris rs ra ui s
  | .xori rs ra ui => Sys2Proof.Machine.execXori rs ra ui s
  | .xoris rs ra ui => Sys2Proof.Machine.execXoris rs ra ui s
  | .andiRc rs ra ui => Sys2Proof.Machine.execAndiRc rs ra ui s
  | .andisRc rs ra ui => Sys2Proof.Machine.execAndisRc rs ra ui s
  | .lwz rt ra d => Sys2Proof.Machine.execLwz rt ra d s
  | .lwzu rt ra d => Sys2Proof.Machine.execLwzu rt ra d s
  | .lbz rt ra d => Sys2Proof.Machine.execLbz rt ra d s
  | .lbzu rt ra d => Sys2Proof.Machine.execLbzu rt ra d s
  | .stw rs ra d => Sys2Proof.Machine.execStw rs ra d s
  | .stwu rs ra d => Sys2Proof.Machine.execStwu rs ra d s
  | .stb rs ra d => Sys2Proof.Machine.execStb rs ra d s
  | .stbu rs ra d => Sys2Proof.Machine.execStbu rs ra d s
  | .lhz rt ra d => Sys2Proof.Machine.execLhz rt ra d s
  | .lhzu rt ra d => Sys2Proof.Machine.execLhzu rt ra d s
  | .lha rt ra d => Sys2Proof.Machine.execLha rt ra d s
  | .lhau rt ra d => Sys2Proof.Machine.execLhau rt ra d s
  | .sth rs ra d => Sys2Proof.Machine.execSth rs ra d s
  | .sthu rs ra d => Sys2Proof.Machine.execSthu rs ra d s
  | .mcrf bf bfa => Sys2Proof.Machine.execMcrf bf bfa s
  | .bclr bo bi bh => Sys2Proof.Machine.execBclr bo bi bh s
  | .bclrl bo bi bh => Sys2Proof.Machine.execBclrl bo bi bh s
  | .rfid => Sys2Proof.Machine.execRfid s
  | .crnor bt ba bb => Sys2Proof.Machine.execCrnor bt ba bb s
  | .crandc bt ba bb => Sys2Proof.Machine.execCrandc bt ba bb s
  | .isync => Sys2Proof.Machine.execIsync s
  | .crxor bt ba bb => Sys2Proof.Machine.execCrxor bt ba bb s
  | .crnand bt ba bb => Sys2Proof.Machine.execCrnand bt ba bb s
  | .crand bt ba bb => Sys2Proof.Machine.execCrand bt ba bb s
  | .hrfid => Sys2Proof.Machine.execHrfid s
  | .creqv bt ba bb => Sys2Proof.Machine.execCreqv bt ba bb s
  | .crorc bt ba bb => Sys2Proof.Machine.execCrorc bt ba bb s
  | .cror bt ba bb => Sys2Proof.Machine.execCror bt ba bb s
  | .bcctr bo bi bh => Sys2Proof.Machine.execBcctr bo bi bh s
  | .bcctrl bo bi bh => Sys2Proof.Machine.execBcctrl bo bi bh s
  | .rldicl rs ra sh mb rc => Sys2Proof.Machine.execRldicl rs ra sh mb rc s
  | .rldicr rs ra sh me rc => Sys2Proof.Machine.execRldicr rs ra sh me rc s
  | .rldic rs ra sh mb rc => Sys2Proof.Machine.execRldic rs ra sh mb rc s
  | .rldimi rs ra sh mb rc => Sys2Proof.Machine.execRldimi rs ra sh mb rc s
  | .rldcl rs ra rb mb rc => Sys2Proof.Machine.execRldcl rs ra rb mb rc s
  | .rldcr rs ra rb me rc => Sys2Proof.Machine.execRldcr rs ra rb me rc s
  | .cmp bf l ra rb => Sys2Proof.Machine.execCmp bf l ra rb s
  | .tw toBits ra rb => Sys2Proof.Machine.execTw toBits ra rb s
  | .subfc rt ra rb oe rc => Sys2Proof.Machine.execSubfc rt ra rb oe rc s
  | .mulhdu rt ra rb rc => Sys2Proof.Machine.execMulhdu rt ra rb rc s
  | .addc rt ra rb oe rc => Sys2Proof.Machine.execAddc rt ra rb oe rc s
  | .mulhwu rt ra rb rc => Sys2Proof.Machine.execMulhwu rt ra rb rc s
  | .mfcr rt => Sys2Proof.Machine.execMfcr rt s
  | .mfocrf rt fxm => Sys2Proof.Machine.execMfocrf rt fxm s
  | .lwarx rt ra rb => Sys2Proof.Machine.execLwarx rt ra rb s
  | .ldx rt ra rb => Sys2Proof.Machine.execLdx rt ra rb s
  | .lwzx rt ra rb => Sys2Proof.Machine.execLwzx rt ra rb s
  | .slw rs ra rb rc => Sys2Proof.Machine.execSlw rs ra rb rc s
  | .cntlzw rs ra rc => Sys2Proof.Machine.execCntlzw rs ra rc s
  | .sld rs ra rb rc => Sys2Proof.Machine.execSld rs ra rb rc s
  | .and rs ra rb rc => Sys2Proof.Machine.execAnd rs ra rb rc s
  | .cmpl bf l ra rb => Sys2Proof.Machine.execCmpl bf l ra rb s
  | .subf rt ra rb oe rc => Sys2Proof.Machine.execSubf rt ra rb oe rc s
  | .ldux rt ra rb => Sys2Proof.Machine.execLdux rt ra rb s
  | .dcbst ra rb => Sys2Proof.Machine.execDcbst ra rb s
  | .lwzux rt ra rb => Sys2Proof.Machine.execLwzux rt ra rb s
  | .cntlzd rs ra rc => Sys2Proof.Machine.execCntlzd rs ra rc s
  | .andc rs ra rb rc => Sys2Proof.Machine.execAndc rs ra rb rc s
  | .td toBits ra rb => Sys2Proof.Machine.execTd toBits ra rb s
  | .mulhd rt ra rb rc => Sys2Proof.Machine.execMulhd rt ra rb rc s
  | .mulhw rt ra rb rc => Sys2Proof.Machine.execMulhw rt ra rb rc s
  | .mfmsr rt => Sys2Proof.Machine.execMfmsr rt s
  | .ldarx rt ra rb => Sys2Proof.Machine.execLdarx rt ra rb s
  | .dcbf ra rb => Sys2Proof.Machine.execDcbf ra rb s
  | .lbzx rt ra rb => Sys2Proof.Machine.execLbzx rt ra rb s
  | .neg rt ra oe rc => Sys2Proof.Machine.execNeg rt ra oe rc s
  | .lbzux rt ra rb => Sys2Proof.Machine.execLbzux rt ra rb s
  | .nor rs ra rb rc => Sys2Proof.Machine.execNor rs ra rb rc s
  | .subfe rt ra rb oe rc => Sys2Proof.Machine.execSubfe rt ra rb oe rc s
  | .adde rt ra rb oe rc => Sys2Proof.Machine.execAdde rt ra rb oe rc s
  | .mtcrf rs fxm => Sys2Proof.Machine.execMtcrf rs fxm s
  | .mtocrf rs fxm => Sys2Proof.Machine.execMtocrf rs fxm s
  | .mtmsr rs => Sys2Proof.Machine.execMtmsr rs s
  | .stdx rs ra rb => Sys2Proof.Machine.execStdx rs ra rb s
  | .stwcx rs ra rb => Sys2Proof.Machine.execStwcx rs ra rb s
  | .stwx rs ra rb => Sys2Proof.Machine.execStwx rs ra rb s
  | .mtmsrd rs => Sys2Proof.Machine.execMtmsrd rs s
  | .stdux rs ra rb => Sys2Proof.Machine.execStdux rs ra rb s
  | .stwux rs ra rb => Sys2Proof.Machine.execStwux rs ra rb s
  | .subfze rt ra oe rc => Sys2Proof.Machine.execSubfze rt ra oe rc s
  | .addze rt ra oe rc => Sys2Proof.Machine.execAddze rt ra oe rc s
  | .stdcx rs ra rb => Sys2Proof.Machine.execStdcx rs ra rb s
  | .stbx rs ra rb => Sys2Proof.Machine.execStbx rs ra rb s
  | .subfme rt ra oe rc => Sys2Proof.Machine.execSubfme rt ra oe rc s
  | .mulld rt ra rb oe rc => Sys2Proof.Machine.execMulld rt ra rb oe rc s
  | .addme rt ra oe rc => Sys2Proof.Machine.execAddme rt ra oe rc s
  | .mullw rt ra rb oe rc => Sys2Proof.Machine.execMullw rt ra rb oe rc s
  | .dcbtst ra rb => Sys2Proof.Machine.execDcbtst ra rb s
  | .stbux rs ra rb => Sys2Proof.Machine.execStbux rs ra rb s
  | .add rt ra rb oe rc => Sys2Proof.Machine.execAdd rt ra rb oe rc s
  | .tlbiel rb => Sys2Proof.Machine.execTlbiel rb s
  | .dcbt ra rb => Sys2Proof.Machine.execDcbt ra rb s
  | .lhzx rt ra rb => Sys2Proof.Machine.execLhzx rt ra rb s
  | .eqv rs ra rb rc => Sys2Proof.Machine.execEqv rs ra rb rc s
  | .tlbie rb => Sys2Proof.Machine.execTlbie rb s
  | .lhzux rt ra rb => Sys2Proof.Machine.execLhzux rt ra rb s
  | .xor rs ra rb rc => Sys2Proof.Machine.execXor rs ra rb rc s
  | .mfspr rt spr => Sys2Proof.Machine.execMfspr rt spr s
  | .lwax rt ra rb => Sys2Proof.Machine.execLwax rt ra rb s
  | .lhax rt ra rb => Sys2Proof.Machine.execLhax rt ra rb s
  | .tlbia => Sys2Proof.Machine.execTlbia s
  | .mftb rt tbr => Sys2Proof.Machine.execMftb rt tbr s
  | .lwaux rt ra rb => Sys2Proof.Machine.execLwaux rt ra rb s
  | .lhaux rt ra rb => Sys2Proof.Machine.execLhaux rt ra rb s
  | .slbmte rs rb => Sys2Proof.Machine.execSlbmte rs rb s
  | .sthx rs ra rb => Sys2Proof.Machine.execSthx rs ra rb s
  | .orc rs ra rb rc => Sys2Proof.Machine.execOrc rs ra rb rc s
  | .sradi rs ra sh rc => Sys2Proof.Machine.execSradi rs ra sh rc s
  | .slbie rb => Sys2Proof.Machine.execSlbie rb s
  | .sthux rs ra rb => Sys2Proof.Machine.execSthux rs ra rb s
  | .mr rs ra rc => Sys2Proof.Machine.execMr rs ra rc s
  | .or rs ra rb rc => Sys2Proof.Machine.execOr rs ra rb rc s
  | .divdu rt ra rb oe rc => Sys2Proof.Machine.execDivdu rt ra rb oe rc s
  | .divwu rt ra rb oe rc => Sys2Proof.Machine.execDivwu rt ra rb oe rc s
  | .mtspr rs spr => Sys2Proof.Machine.execMtspr rs spr s
  | .nand rs ra rb rc => Sys2Proof.Machine.execNand rs ra rb rc s
  | .divd rt ra rb oe rc => Sys2Proof.Machine.execDivd rt ra rb oe rc s
  | .divw rt ra rb oe rc => Sys2Proof.Machine.execDivw rt ra rb oe rc s
  | .slbia => Sys2Proof.Machine.execSlbia s
  | .lwbrx rt ra rb => Sys2Proof.Machine.execLwbrx rt ra rb s
  | .srw rs ra rb rc => Sys2Proof.Machine.execSrw rs ra rb rc s
  | .srd rs ra rb rc => Sys2Proof.Machine.execSrd rs ra rb rc s
  | .tlbsync => Sys2Proof.Machine.execTlbsync s
  | .sync l => Sys2Proof.Machine.execSync l s
  | .stwbrx rs ra rb => Sys2Proof.Machine.execStwbrx rs ra rb s
  | .lhbrx rt ra rb => Sys2Proof.Machine.execLhbrx rt ra rb s
  | .sraw rs ra rb rc => Sys2Proof.Machine.execSraw rs ra rb rc s
  | .srad rs ra rb rc => Sys2Proof.Machine.execSrad rs ra rb rc s
  | .srawi rs ra sh rc => Sys2Proof.Machine.execSrawi rs ra sh rc s
  | .slbmfev rt rb => Sys2Proof.Machine.execSlbmfev rt rb s
  | .eieio => Sys2Proof.Machine.execEieio s
  | .slbmfee rt rb => Sys2Proof.Machine.execSlbmfee rt rb s
  | .sthbrx rs ra rb => Sys2Proof.Machine.execSthbrx rs ra rb s
  | .extsh rs ra rc => Sys2Proof.Machine.execExtsh rs ra rc s
  | .extsb rs ra rc => Sys2Proof.Machine.execExtsb rs ra rc s
  | .icbi ra rb => Sys2Proof.Machine.execIcbi ra rb s
  | .extsw rs ra rc => Sys2Proof.Machine.execExtsw rs ra rc s
  | .dcbz ra rb => Sys2Proof.Machine.execDcbz ra rb s
  | .ld rt ra ds => Sys2Proof.Machine.execLd rt ra ds s
  | .ldu rt ra ds => Sys2Proof.Machine.execLdu rt ra ds s
  | .lwa rt ra ds => Sys2Proof.Machine.execLwa rt ra ds s
  | .std rs ra ds => Sys2Proof.Machine.execStd rs ra ds s
  | .stdu rs ra ds => Sys2Proof.Machine.execStdu rs ra ds s
  | .reserved w => Sys2Proof.Machine.execReserved w s
  | .passthrough w => Sys2Proof.Machine.execPassthrough w s

end Sys2Proof.Machine
end

