-- ==== Sys2Proof/Machine/Step.lean ====
section
/-! DEFINITION. One step of the consumer (60_exceptions.md R602), and how the host places an instruction where the step
fetches it. -/

namespace Sys2Proof.Machine

/-- Steps 1 to 4 of R602 stop the step before the fetch; then the word at PC is decoded: a failed decode is
`Fault(IllegalInstruction(W))` (R605), and a decoded instruction runs. -/
def step (s : State) : Host.Outcome State Fault Refusal :=
  match s.fetchStop with
  | some f => .fault f
  | none =>
    match decode s.fetchWord with
    | .failure _ => .fault (.illegalInstruction s.fetchWord)
    | .success i => exec i s

/-- `s` with the instruction whose bits are `w` stored where `step` fetches its next instruction, as part of the launch
memory (assumption log 11). -/
def State.withFetchWord (s : State) (nbits w : Nat) : State := s.placeWord (BitVec.ofNat 32 (w % 2 ^ nbits))

end Sys2Proof.Machine
end

