-- ==== Sys2Proof/Machine/Run.lean ====
section
/-! DEFINITION. A run of the consumer: from a launch state, steps up to the first outcome that ends it
(70_reset_and_hazards.md R702; 60_exceptions.md R601). -/

namespace Sys2Proof.Machine

/-- How a run stands after a bounded number of steps (60_exceptions.md R601): it has not ended yet, or it has, with the
state its last step started from, which that step leaves unchanged (R606). -/
inductive RunOutcome where
  | running (s : State)
  | halt (s : State)
  | fault (f : Fault) (s : State)
  | refusal (r : Refusal) (s : State)
  | stuck (addr : Word) (n : Nat) (kind : AccessKind) (s : State)
deriving DecidableEq, Repr

/-- The outcome of R601 that a step's fault reason stands for: `halted` and `stuck` are no faults of R604 (assumption
logs 8 and 9). -/
def faultOutcome (f : Fault) (s : State) : RunOutcome :=
  match f with
  | .halted => .halt s
  | .stuck addr n kind => .stuck addr n kind s
  | .illegalInstruction _ | .misalignedFetch _ | .modifiedCodeFetch _ | .unsetRegister | .misalignedData _ _
  | .trapTaken _ | .systemCall _ => .fault f s

/-- The run from a state, cut off after `bound` steps (R702: "No step bound exists, and a model may take one as an
argument of its run function"): the step is repeated, and the first outcome that is no next state ends the run. -/
def runFrom : Nat → State → RunOutcome
  | 0, s => .running s
  | bound + 1, s =>
    match step s with
    | .next t => runFrom bound t
    | .fault f => faultOutcome f s
    | .refused r => .refusal r s

/-- The run of a launch (R701, R702). -/
def Launch.run (l : Launch) (p : Config.Params) (bound : Nat) : RunOutcome := runFrom bound (l.start p)

end Sys2Proof.Machine
end

