-- ==== Sys2Proof/Machine/Metadata.lean ====
section
/-! DEFINITION. The decoder's branch outputs: the branch record (40_branch.md R200), the control-flow metadata
extractor (R230 to R238) and the caller's label resolution (R212; 70_reset_and_hazards.md R712). -/

namespace Sys2Proof.Machine

/-- Where a branch target comes from (R200). -/
inductive BranchKind where
  | rel
  | abs
  | lr
  | ctr
deriving DecidableEq, Repr

/-- The decoder's branch record (R200). -/
structure BranchInfo where
  kind : BranchKind
  target : Option Word
  always : Bool
  ctrDec : Bool
  ctrZero : Bool
  crTest : Bool
  crBit : BitVec 5
  crVal : Bool
  link : Bool
deriving DecidableEq, Repr

/-- The record of an I-form branch: unconditional, with the test outputs 0 (assumption log 17). -/
def unconditionalInfo (aa link : Bool) (disp addr : Word) : BranchInfo :=
  { kind := if aa then .abs else .rel, target := some (branchTarget aa disp addr), always := true, ctrDec := false,
    ctrZero := false, crTest := false, crBit := 0#5, crVal := false, link := link }

/-- The record of a branch with a BO and a BI field (R200, R204). `ctr_zero` is BO3 where the CTR test is requested
(BO2 = 0) and `cr_val` is BO1 where the CR test is (BO0 = 0); where its test is not requested the bit is a hint, which
changes no output but the raw fields (R213), and the output is 0 (DESIGN CHOICE, assumption log 25). -/
def conditionalInfo (kind : BranchKind) (target : Option Word) (bo bi : BitVec 5) (link : Bool) : BranchInfo :=
  { kind := kind, target := target, always := branchAlways bo, ctrDec := ctrDecrements bo,
    ctrZero := ctrDecrements bo && boBit bo 3, crTest := !boBit bo 0, crBit := bi, crVal := !boBit bo 0 && boBit bo 1,
    link := link }

/-- The record of a B-form branch. -/
def infoB (aa link : Bool) (bo bi : BitVec 5) (bd : BitVec 14) (addr : Word) : BranchInfo :=
  conditionalInfo (if aa then .abs else .rel) (some (branchTarget aa (dispBD bd) addr)) bo bi link

/-- The edge kinds of the control-flow metadata (R230). -/
inductive EdgeKind where
  | unconditional
  | trueBranch
  | falseBranch
  | call
deriving DecidableEq, Repr

/-- The edges of a branch whose target address is known (R231 to R235). -/
def edgesTo (always link : Bool) (target addr : Word) : List (EdgeKind × Word) :=
  if always then [(if link then .call else .unconditional, target)]
  else [(if link then .call else .trueBranch, target), (.falseBranch, addr + 4#64)]

/-- The control-flow metadata of a word at an address (R230 to R237), from the field extractors alone. -/
def edges (w : InsnWord) (addr : Word) : List (EdgeKind × Word) :=
  let op := (fieldOPCD w).toNat
  if op = 18 then edgesTo true (fieldLK w) (branchTarget (fieldAA w) (dispLI (fieldLI w)) addr) addr
  else if op = 16 then
    edgesTo (branchAlways (fieldRT w)) (fieldLK w) (branchTarget (fieldAA w) (dispBD (fieldBD w)) addr) addr
  else if op = 19 ∧ ((fieldXO10 w).toNat = 16 ∨ (fieldXO10 w).toNat = 528) then
    if branchAlways (fieldRT w) then [] else [(.falseBranch, addr + 4#64)]
  else []

/-- The label of each edge, through the caller's `resolve`; an edge whose label is `none` emits no label-targeted jump,
and neither the verdict nor the metadata edges depend on it (R212, R238). -/
def edgeLabels {α : Type} (resolve : Word → Option α) (w : InsnWord) (addr : Word) : List (EdgeKind × Option α) :=
  (edges w addr).map fun e => (e.1, resolve e.2)

end Sys2Proof.Machine
end

