-- ==== Sys2Proof/Machine/DecoderOut.lean ====
section
/-! DEFINITION. The decoder block's outputs other than the verdict and the text (10_state.md R33): the mnemonic, class,
form, raw fields, immediate, rotate mask, branch record, flag-write request and intrinsic record. -/

namespace Sys2Proof.Machine

/-- The form tags (10_state.md R33; 30_encoding.md R102). -/
inductive Form where
  | d
  | ds
  | i
  | b
  | m
  | md
  | mds
  | x
  | xl
  | xfx
  | xo
  | xs
  | sc
deriving DecidableEq, Repr

/-- How the consumer gives an instruction meaning (10_state.md R33); `reserved` never reaches it. -/
inductive InsnClass where
  | modelled
  | intrinsic
  | passthrough
  | reserved
deriving DecidableEq, Repr

/-- The named fields of the forms (30_encoding.md R103 to R116). `l` is the compares' L and `syncL` is sync's (R111);
`shLo`, `shHi` and `mbe` are the raw halves of a split field, `sh`, `mb` and `me` the assembled values (R109, R110,
R115); `one` is `W[20]` of the CR moves (R113). -/
inductive FieldName where
  | opcd
  | rt
  | rs
  | toBits
  | bo
  | bt
  | bf
  | l
  | syncL
  | ra
  | bi
  | ba
  | bfa
  | rb
  | bb
  | bh
  | sh
  | shLo
  | shHi
  | mb
  | me
  | mbe
  | si
  | ui
  | d
  | ds
  | li
  | bd
  | aa
  | lk
  | oe
  | rc
  | xo
  | spr
  | tbr
  | one
  | fxm
  | lev
deriving DecidableEq, Repr

/-- A field's place in the word: its runs of bits (hi, lo), LSB-0, the most significant run first, followed by `zeros`
zero bits. Every field but the assembled ones is one run. -/
structure FieldSlot where
  name : FieldName
  parts : List (Nat × Nat)
  zeros : Nat
deriving DecidableEq, Repr

/-- The slot of a field that is one run of bits. -/
def slot (name : FieldName) (hi lo : Nat) : FieldSlot := ⟨name, [(hi, lo)], 0⟩

/-- The declared width of a field (30_encoding.md R101). -/
def FieldSlot.width (f : FieldSlot) : Nat := f.parts.foldl (fun n p => n + (p.1 - p.2 + 1)) 0 + f.zeros

/-- The raw value of a field, an unsigned integer of its declared width (30_encoding.md R101). -/
def FieldSlot.value (f : FieldSlot) (w : InsnWord) : Nat :=
  f.parts.foldl (fun v p => v * 2 ^ (p.1 - p.2 + 1) + (w.extractLsb' p.2 (p.1 - p.2 + 1)).toNat) 0 * 2 ^ f.zeros

/-- The assembled 6-bit shift `W[1] || W[15:11]` of the MD and XS forms (R109, R115). -/
def slotSh6 : FieldSlot := ⟨.sh, [(1, 1), (15, 11)], 0⟩

/-- The assembled 6-bit mask bound `W[5] || W[10:6]` of the MD and MDS forms, under the name `mb` or `me` (R109,
R110). -/
def slotBound (name : FieldName) : FieldSlot := ⟨name, [(5, 5), (10, 6)], 0⟩

/-- The assembled SPR or TBR number `W[15:11] || W[20:16]` (R113). -/
def slotSpr (name : FieldName) : FieldSlot := ⟨name, [(15, 11), (20, 16)], 0⟩

/-- Every named field of a form (30_encoding.md R103 to R116). Names that the rules join by "or" or "/" (RT, RS, TO;
BF with L) are alternative names of the same bits, and each is a field of the form (assumption log 26). The DS form's
`d` is the pattern `W[15:0] & 0xFFFC` (R133, R164). -/
def formFields : Form → List FieldSlot
  | .d =>
    [slot .opcd 31 26, slot .rt 25 21, slot .rs 25 21, slot .toBits 25 21, slot .bf 25 23, slot .l 21 21,
      slot .ra 20 16, slot .d 15 0, slot .si 15 0, slot .ui 15 0]
  | .ds =>
    [slot .opcd 31 26, slot .rt 25 21, slot .rs 25 21, slot .ra 20 16, slot .ds 15 2, ⟨.d, [(15, 2)], 2⟩,
      slot .xo 1 0]
  | .i => [slot .opcd 31 26, slot .li 25 2, slot .aa 1 1, slot .lk 0 0]
  | .b => [slot .opcd 31 26, slot .bo 25 21, slot .bi 20 16, slot .bd 15 2, slot .aa 1 1, slot .lk 0 0]
  | .m =>
    [slot .opcd 31 26, slot .rs 25 21, slot .ra 20 16, slot .rb 15 11, slot .sh 15 11, slot .mb 10 6, slot .me 5 1,
      slot .rc 0 0]
  | .md =>
    [slot .opcd 31 26, slot .rs 25 21, slot .ra 20 16, slot .shLo 15 11, slot .mbe 10 5, slot .xo 4 2,
      slot .shHi 1 1, slotSh6, slotBound .mb, slotBound .me, slot .rc 0 0]
  | .mds =>
    [slot .opcd 31 26, slot .rs 25 21, slot .ra 20 16, slot .rb 15 11, slot .mbe 10 5, slot .xo 4 1, slotBound .mb,
      slotBound .me, slot .rc 0 0]
  | .x =>
    [slot .opcd 31 26, slot .rt 25 21, slot .rs 25 21, slot .toBits 25 21, slot .bf 25 23, slot .l 21 21,
      slot .syncL 22 21, slot .ra 20 16, slot .rb 15 11, slot .sh 15 11, slot .xo 10 1, slot .rc 0 0]
  | .xl =>
    [slot .opcd 31 26, slot .bo 25 21, slot .bt 25 21, slot .bf 25 23, slot .bi 20 16, slot .ba 20 16,
      slot .bfa 20 18, slot .bb 15 11, slot .bh 12 11, slot .xo 10 1, slot .lk 0 0]
  | .xfx =>
    [slot .opcd 31 26, slot .rt 25 21, slot .rs 25 21, slotSpr .spr, slotSpr .tbr, slot .one 20 20, slot .fxm 19 12,
      slot .xo 10 1]
  | .xo =>
    [slot .opcd 31 26, slot .rt 25 21, slot .ra 20 16, slot .rb 15 11, slot .oe 10 10, slot .xo 9 1, slot .rc 0 0]
  | .xs =>
    [slot .opcd 31 26, slot .rs 25 21, slot .ra 20 16, slot .shLo 15 11, slot .xo 10 2, slot .shHi 1 1, slotSh6,
      slot .rc 0 0]
  | .sc => [slot .opcd 31 26, slot .lev 11 5]

/-- The field extractor (30_encoding.md R101): for a word and a form tag, every named field of the form, raw. It is
total over all words, and the instruction plays no part in it. -/
def extractFields (f : Form) (w : InsnWord) : List (FieldName × Nat) := (formFields f).map fun x => (x.name, x.value w)

/-- The base mnemonic, as spec/opcode_table.json spells it (30_encoding.md R162). -/
def mnemonic : Instr → String
  | .tdi _ _ _ => "tdi"
  | .twi _ _ _ => "twi"
  | .mulli _ _ _ => "mulli"
  | .subfic _ _ _ => "subfic"
  | .cmpli _ _ _ _ => "cmpli"
  | .cmpi _ _ _ _ => "cmpi"
  | .addic _ _ _ => "addic"
  | .addicRc _ _ _ => "addic."
  | .li _ _ => "li"
  | .addi _ _ _ => "addi"
  | .lis _ _ => "lis"
  | .addis _ _ _ => "addis"
  | .bc _ _ _ => "bc"
  | .bca _ _ _ => "bca"
  | .bcl _ _ _ => "bcl"
  | .bcla _ _ _ => "bcla"
  | .sc _ => "sc"
  | .b _ => "b"
  | .ba _ => "ba"
  | .bl _ => "bl"
  | .bla _ => "bla"
  | .rlwimi _ _ _ _ _ _ => "rlwimi"
  | .rlwinm _ _ _ _ _ _ => "rlwinm"
  | .rlwnm _ _ _ _ _ _ => "rlwnm"
  | .nop => "nop"
  | .ori _ _ _ => "ori"
  | .oris _ _ _ => "oris"
  | .xori _ _ _ => "xori"
  | .xoris _ _ _ => "xoris"
  | .andiRc _ _ _ => "andi."
  | .andisRc _ _ _ => "andis."
  | .lwz _ _ _ => "lwz"
  | .lwzu _ _ _ => "lwzu"
  | .lbz _ _ _ => "lbz"
  | .lbzu _ _ _ => "lbzu"
  | .stw _ _ _ => "stw"
  | .stwu _ _ _ => "stwu"
  | .stb _ _ _ => "stb"
  | .stbu _ _ _ => "stbu"
  | .lhz _ _ _ => "lhz"
  | .lhzu _ _ _ => "lhzu"
  | .lha _ _ _ => "lha"
  | .lhau _ _ _ => "lhau"
  | .sth _ _ _ => "sth"
  | .sthu _ _ _ => "sthu"
  | .mcrf _ _ => "mcrf"
  | .bclr _ _ _ => "bclr"
  | .bclrl _ _ _ => "bclrl"
  | .rfid => "rfid"
  | .crnor _ _ _ => "crnor"
  | .crandc _ _ _ => "crandc"
  | .isync => "isync"
  | .crxor _ _ _ => "crxor"
  | .crnand _ _ _ => "crnand"
  | .crand _ _ _ => "crand"
  | .hrfid => "hrfid"
  | .creqv _ _ _ => "creqv"
  | .crorc _ _ _ => "crorc"
  | .cror _ _ _ => "cror"
  | .bcctr _ _ _ => "bcctr"
  | .bcctrl _ _ _ => "bcctrl"
  | .rldicl _ _ _ _ _ => "rldicl"
  | .rldicr _ _ _ _ _ => "rldicr"
  | .rldic _ _ _ _ _ => "rldic"
  | .rldimi _ _ _ _ _ => "rldimi"
  | .rldcl _ _ _ _ _ => "rldcl"
  | .rldcr _ _ _ _ _ => "rldcr"
  | .cmp _ _ _ _ => "cmp"
  | .tw _ _ _ => "tw"
  | .subfc _ _ _ _ _ => "subfc"
  | .mulhdu _ _ _ _ => "mulhdu"
  | .addc _ _ _ _ _ => "addc"
  | .mulhwu _ _ _ _ => "mulhwu"
  | .mfcr _ => "mfcr"
  | .mfocrf _ _ => "mfocrf"
  | .lwarx _ _ _ => "lwarx"
  | .ldx _ _ _ => "ldx"
  | .lwzx _ _ _ => "lwzx"
  | .slw _ _ _ _ => "slw"
  | .cntlzw _ _ _ => "cntlzw"
  | .sld _ _ _ _ => "sld"
  | .and _ _ _ _ => "and"
  | .cmpl _ _ _ _ => "cmpl"
  | .subf _ _ _ _ _ => "subf"
  | .ldux _ _ _ => "ldux"
  | .dcbst _ _ => "dcbst"
  | .lwzux _ _ _ => "lwzux"
  | .cntlzd _ _ _ => "cntlzd"
  | .andc _ _ _ _ => "andc"
  | .td _ _ _ => "td"
  | .mulhd _ _ _ _ => "mulhd"
  | .mulhw _ _ _ _ => "mulhw"
  | .mfmsr _ => "mfmsr"
  | .ldarx _ _ _ => "ldarx"
  | .dcbf _ _ => "dcbf"
  | .lbzx _ _ _ => "lbzx"
  | .neg _ _ _ _ => "neg"
  | .lbzux _ _ _ => "lbzux"
  | .nor _ _ _ _ => "nor"
  | .subfe _ _ _ _ _ => "subfe"
  | .adde _ _ _ _ _ => "adde"
  | .mtcrf _ _ => "mtcrf"
  | .mtocrf _ _ => "mtocrf"
  | .mtmsr _ => "mtmsr"
  | .stdx _ _ _ => "stdx"
  | .stwcx _ _ _ => "stwcx."
  | .stwx _ _ _ => "stwx"
  | .mtmsrd _ => "mtmsrd"
  | .stdux _ _ _ => "stdux"
  | .stwux _ _ _ => "stwux"
  | .subfze _ _ _ _ => "subfze"
  | .addze _ _ _ _ => "addze"
  | .stdcx _ _ _ => "stdcx."
  | .stbx _ _ _ => "stbx"
  | .subfme _ _ _ _ => "subfme"
  | .mulld _ _ _ _ _ => "mulld"
  | .addme _ _ _ _ => "addme"
  | .mullw _ _ _ _ _ => "mullw"
  | .dcbtst _ _ => "dcbtst"
  | .stbux _ _ _ => "stbux"
  | .add _ _ _ _ _ => "add"
  | .tlbiel _ => "tlbiel"
  | .dcbt _ _ => "dcbt"
  | .lhzx _ _ _ => "lhzx"
  | .eqv _ _ _ _ => "eqv"
  | .tlbie _ => "tlbie"
  | .lhzux _ _ _ => "lhzux"
  | .xor _ _ _ _ => "xor"
  | .mfspr _ _ => "mfspr"
  | .lwax _ _ _ => "lwax"
  | .lhax _ _ _ => "lhax"
  | .tlbia => "tlbia"
  | .mftb _ _ => "mftb"
  | .lwaux _ _ _ => "lwaux"
  | .lhaux _ _ _ => "lhaux"
  | .slbmte _ _ => "slbmte"
  | .sthx _ _ _ => "sthx"
  | .orc _ _ _ _ => "orc"
  | .sradi _ _ _ _ => "sradi"
  | .slbie _ => "slbie"
  | .sthux _ _ _ => "sthux"
  | .mr _ _ _ => "mr"
  | .or _ _ _ _ => "or"
  | .divdu _ _ _ _ _ => "divdu"
  | .divwu _ _ _ _ _ => "divwu"
  | .mtspr _ _ => "mtspr"
  | .nand _ _ _ _ => "nand"
  | .divd _ _ _ _ _ => "divd"
  | .divw _ _ _ _ _ => "divw"
  | .slbia => "slbia"
  | .lwbrx _ _ _ => "lwbrx"
  | .srw _ _ _ _ => "srw"
  | .srd _ _ _ _ => "srd"
  | .tlbsync => "tlbsync"
  | .sync _ => "sync"
  | .stwbrx _ _ _ => "stwbrx"
  | .lhbrx _ _ _ => "lhbrx"
  | .sraw _ _ _ _ => "sraw"
  | .srad _ _ _ _ => "srad"
  | .srawi _ _ _ _ => "srawi"
  | .slbmfev _ _ => "slbmfev"
  | .eieio => "eieio"
  | .slbmfee _ _ => "slbmfee"
  | .sthbrx _ _ _ => "sthbrx"
  | .extsh _ _ _ => "extsh"
  | .extsb _ _ _ => "extsb"
  | .icbi _ _ => "icbi"
  | .extsw _ _ _ => "extsw"
  | .dcbz _ _ => "dcbz"
  | .ld _ _ _ => "ld"
  | .ldu _ _ _ => "ldu"
  | .lwa _ _ _ => "lwa"
  | .std _ _ _ => "std"
  | .stdu _ _ _ => "stdu"
  | .reserved _ => "<reserved>"
  | .passthrough _ => "<passthrough>"

/-- The form of an instruction (30_encoding.md R102); the passthrough and reserved words have none. -/
def form : Instr → Option Form
  | .tdi _ _ _ | .twi _ _ _ | .mulli _ _ _ | .subfic _ _ _ | .cmpli _ _ _ _ | .cmpi _ _ _ _ | .addic _ _ _
  | .addicRc _ _ _ | .li _ _ | .addi _ _ _ | .lis _ _ | .addis _ _ _ | .nop | .ori _ _ _ | .oris _ _ _
  | .xori _ _ _ | .xoris _ _ _ | .andiRc _ _ _ | .andisRc _ _ _ | .lwz _ _ _ | .lwzu _ _ _ | .lbz _ _ _
  | .lbzu _ _ _ | .stw _ _ _ | .stwu _ _ _ | .stb _ _ _ | .stbu _ _ _ | .lhz _ _ _ | .lhzu _ _ _ | .lha _ _ _
  | .lhau _ _ _ | .sth _ _ _ | .sthu _ _ _ => some .d
  | .bc _ _ _ | .bca _ _ _ | .bcl _ _ _ | .bcla _ _ _ => some .b
  | .sc _ => some .sc
  | .b _ | .ba _ | .bl _ | .bla _ => some .i
  | .rlwimi _ _ _ _ _ _ | .rlwinm _ _ _ _ _ _ | .rlwnm _ _ _ _ _ _ => some .m
  | .mcrf _ _ | .bclr _ _ _ | .bclrl _ _ _ | .rfid | .crnor _ _ _ | .crandc _ _ _ | .isync | .crxor _ _ _
  | .crnand _ _ _ | .crand _ _ _ | .hrfid | .creqv _ _ _ | .crorc _ _ _ | .cror _ _ _ | .bcctr _ _ _
  | .bcctrl _ _ _ => some .xl
  | .rldicl _ _ _ _ _ | .rldicr _ _ _ _ _ | .rldic _ _ _ _ _ | .rldimi _ _ _ _ _ => some .md
  | .rldcl _ _ _ _ _ | .rldcr _ _ _ _ _ => some .mds
  | .cmp _ _ _ _ | .tw _ _ _ | .mulhdu _ _ _ _ | .mulhwu _ _ _ _ | .lwarx _ _ _ | .ldx _ _ _ | .lwzx _ _ _
  | .slw _ _ _ _ | .cntlzw _ _ _ | .sld _ _ _ _ | .and _ _ _ _ | .cmpl _ _ _ _ | .ldux _ _ _ | .dcbst _ _
  | .lwzux _ _ _ | .cntlzd _ _ _ | .andc _ _ _ _ | .td _ _ _ | .mulhd _ _ _ _ | .mulhw _ _ _ _ | .mfmsr _
  | .ldarx _ _ _ | .dcbf _ _ | .lbzx _ _ _ | .lbzux _ _ _ | .nor _ _ _ _ | .mtmsr _ | .stdx _ _ _ | .stwcx _ _ _
  | .stwx _ _ _ | .mtmsrd _ | .stdux _ _ _ | .stwux _ _ _ | .stdcx _ _ _ | .stbx _ _ _ | .dcbtst _ _
  | .stbux _ _ _ | .tlbiel _ | .dcbt _ _ | .lhzx _ _ _ | .eqv _ _ _ _ | .tlbie _ | .lhzux _ _ _ | .xor _ _ _ _
  | .lwax _ _ _ | .lhax _ _ _ | .tlbia | .lwaux _ _ _ | .lhaux _ _ _ | .slbmte _ _ | .sthx _ _ _ | .orc _ _ _ _
  | .slbie _ | .sthux _ _ _ | .mr _ _ _ | .or _ _ _ _ | .nand _ _ _ _ | .slbia | .lwbrx _ _ _ | .srw _ _ _ _
  | .srd _ _ _ _ | .tlbsync | .sync _ | .stwbrx _ _ _ | .lhbrx _ _ _ | .sraw _ _ _ _ | .srad _ _ _ _
  | .srawi _ _ _ _ | .slbmfev _ _ | .eieio | .slbmfee _ _ | .sthbrx _ _ _ | .extsh _ _ _ | .extsb _ _ _
  | .icbi _ _ | .extsw _ _ _ | .dcbz _ _ => some .x
  | .subfc _ _ _ _ _ | .addc _ _ _ _ _ | .subf _ _ _ _ _ | .neg _ _ _ _ | .subfe _ _ _ _ _ | .adde _ _ _ _ _
  | .subfze _ _ _ _ | .addze _ _ _ _ | .subfme _ _ _ _ | .mulld _ _ _ _ _ | .addme _ _ _ _ | .mullw _ _ _ _ _
  | .add _ _ _ _ _ | .divdu _ _ _ _ _ | .divwu _ _ _ _ _ | .divd _ _ _ _ _ | .divw _ _ _ _ _ => some .xo
  | .mfcr _ | .mfocrf _ _ | .mtcrf _ _ | .mtocrf _ _ | .mfspr _ _ | .mftb _ _ | .mtspr _ _ => some .xfx
  | .sradi _ _ _ _ => some .xs
  | .ld _ _ _ | .ldu _ _ _ | .lwa _ _ _ | .std _ _ _ | .stdu _ _ _ => some .ds
  | .reserved _ | .passthrough _ => none

/-- The `class` output (10_state.md R33): the opcode table's own class, intrinsic exactly for the identifiers of
46_system.md R507. DEDUCED, safe: mfspr and mtspr are modelled for every SPR, where R125 gives that class for SPR 1, 8
and 9 and names none for the others (assumption log 27). -/
def insnClass : Instr → InsnClass
  | .tdi _ _ _ | .twi _ _ _ | .sc _ | .rfid | .isync | .hrfid | .tw _ _ _ | .lwarx _ _ _ | .dcbst _ _ | .td _ _ _
  | .mfmsr _ | .ldarx _ _ _ | .dcbf _ _ | .mtmsr _ | .stwcx _ _ _ | .mtmsrd _ | .stdcx _ _ _ | .dcbtst _ _
  | .tlbiel _ | .dcbt _ _ | .tlbie _ | .tlbia | .mftb _ _ | .slbmte _ _ | .slbie _ | .slbia | .tlbsync | .sync _
  | .slbmfev _ _ | .eieio | .slbmfee _ _ | .icbi _ _ | .dcbz _ _ => .intrinsic
  | .mulli _ _ _ | .subfic _ _ _ | .cmpli _ _ _ _ | .cmpi _ _ _ _ | .addic _ _ _ | .addicRc _ _ _ | .li _ _
  | .addi _ _ _ | .lis _ _ | .addis _ _ _ | .bc _ _ _ | .bca _ _ _ | .bcl _ _ _ | .bcla _ _ _ | .b _ | .ba _
  | .bl _ | .bla _ | .rlwimi _ _ _ _ _ _ | .rlwinm _ _ _ _ _ _ | .rlwnm _ _ _ _ _ _ | .nop | .ori _ _ _
  | .oris _ _ _ | .xori _ _ _ | .xoris _ _ _ | .andiRc _ _ _ | .andisRc _ _ _ | .lwz _ _ _ | .lwzu _ _ _
  | .lbz _ _ _ | .lbzu _ _ _ | .stw _ _ _ | .stwu _ _ _ | .stb _ _ _ | .stbu _ _ _ | .lhz _ _ _ | .lhzu _ _ _
  | .lha _ _ _ | .lhau _ _ _ | .sth _ _ _ | .sthu _ _ _ | .mcrf _ _ | .bclr _ _ _ | .bclrl _ _ _ | .crnor _ _ _
  | .crandc _ _ _ | .crxor _ _ _ | .crnand _ _ _ | .crand _ _ _ | .creqv _ _ _ | .crorc _ _ _ | .cror _ _ _
  | .bcctr _ _ _ | .bcctrl _ _ _ | .rldicl _ _ _ _ _ | .rldicr _ _ _ _ _ | .rldic _ _ _ _ _ | .rldimi _ _ _ _ _
  | .rldcl _ _ _ _ _ | .rldcr _ _ _ _ _ | .cmp _ _ _ _ | .subfc _ _ _ _ _ | .mulhdu _ _ _ _ | .addc _ _ _ _ _
  | .mulhwu _ _ _ _ | .mfcr _ | .mfocrf _ _ | .ldx _ _ _ | .lwzx _ _ _ | .slw _ _ _ _ | .cntlzw _ _ _
  | .sld _ _ _ _ | .and _ _ _ _ | .cmpl _ _ _ _ | .subf _ _ _ _ _ | .ldux _ _ _ | .lwzux _ _ _ | .cntlzd _ _ _
  | .andc _ _ _ _ | .mulhd _ _ _ _ | .mulhw _ _ _ _ | .lbzx _ _ _ | .neg _ _ _ _ | .lbzux _ _ _ | .nor _ _ _ _
  | .subfe _ _ _ _ _ | .adde _ _ _ _ _ | .mtcrf _ _ | .mtocrf _ _ | .stdx _ _ _ | .stwx _ _ _ | .stdux _ _ _
  | .stwux _ _ _ | .subfze _ _ _ _ | .addze _ _ _ _ | .stbx _ _ _ | .subfme _ _ _ _ | .mulld _ _ _ _ _
  | .addme _ _ _ _ | .mullw _ _ _ _ _ | .stbux _ _ _ | .add _ _ _ _ _ | .lhzx _ _ _ | .eqv _ _ _ _ | .lhzux _ _ _
  | .xor _ _ _ _ | .mfspr _ _ | .lwax _ _ _ | .lhax _ _ _ | .lwaux _ _ _ | .lhaux _ _ _ | .sthx _ _ _
  | .orc _ _ _ _ | .sradi _ _ _ _ | .sthux _ _ _ | .mr _ _ _ | .or _ _ _ _ | .divdu _ _ _ _ _ | .divwu _ _ _ _ _
  | .mtspr _ _ | .nand _ _ _ _ | .divd _ _ _ _ _ | .divw _ _ _ _ _ | .lwbrx _ _ _ | .srw _ _ _ _ | .srd _ _ _ _
  | .stwbrx _ _ _ | .lhbrx _ _ _ | .sraw _ _ _ _ | .srad _ _ _ _ | .srawi _ _ _ _ | .sthbrx _ _ _ | .extsh _ _ _
  | .extsb _ _ _ | .extsw _ _ _ | .ld _ _ _ | .ldu _ _ _ | .lwa _ _ _ | .std _ _ _ | .stdu _ _ _ => .modelled
  | .passthrough _ => .passthrough
  | .reserved _ => .reserved

/-- The `fields` output: every field of the instruction's form, raw (10_state.md R33); a passthrough word has no form
and no fields (30_encoding.md R131). -/
def rawFields (i : Instr) (w : InsnWord) : List (FieldName × Nat) :=
  match form i with
  | some f => extractFields f w
  | none => []

/-- The record bit: Rc, or 1 for the instructions that always record (10_state.md R46). -/
def recordBit : Instr → Bool
  | .rlwimi _ _ _ _ _ rc | .rlwinm _ _ _ _ _ rc | .rlwnm _ _ _ _ _ rc | .rldicl _ _ _ _ rc | .rldicr _ _ _ _ rc
  | .rldic _ _ _ _ rc | .rldimi _ _ _ _ rc | .rldcl _ _ _ _ rc | .rldcr _ _ _ _ rc | .subfc _ _ _ _ rc
  | .mulhdu _ _ _ rc | .addc _ _ _ _ rc | .mulhwu _ _ _ rc | .slw _ _ _ rc | .cntlzw _ _ rc | .sld _ _ _ rc
  | .and _ _ _ rc | .subf _ _ _ _ rc | .cntlzd _ _ rc | .andc _ _ _ rc | .mulhd _ _ _ rc | .mulhw _ _ _ rc
  | .neg _ _ _ rc | .nor _ _ _ rc | .subfe _ _ _ _ rc | .adde _ _ _ _ rc | .subfze _ _ _ rc | .addze _ _ _ rc
  | .subfme _ _ _ rc | .mulld _ _ _ _ rc | .addme _ _ _ rc | .mullw _ _ _ _ rc | .add _ _ _ _ rc | .eqv _ _ _ rc
  | .xor _ _ _ rc | .orc _ _ _ rc | .sradi _ _ _ rc | .mr _ _ rc | .or _ _ _ rc | .divdu _ _ _ _ rc
  | .divwu _ _ _ _ rc | .nand _ _ _ rc | .divd _ _ _ _ rc | .divw _ _ _ _ rc | .srw _ _ _ rc | .srd _ _ _ rc
  | .sraw _ _ _ rc | .srad _ _ _ rc | .srawi _ _ _ rc | .extsh _ _ rc | .extsb _ _ rc | .extsw _ _ rc => rc
  | .addicRc _ _ _ | .andiRc _ _ _ | .andisRc _ _ _ => true
  | .tdi _ _ _ | .twi _ _ _ | .mulli _ _ _ | .subfic _ _ _ | .cmpli _ _ _ _ | .cmpi _ _ _ _ | .addic _ _ _
  | .li _ _ | .addi _ _ _ | .lis _ _ | .addis _ _ _ | .bc _ _ _ | .bca _ _ _ | .bcl _ _ _ | .bcla _ _ _ | .sc _
  | .b _ | .ba _ | .bl _ | .bla _ | .nop | .ori _ _ _ | .oris _ _ _ | .xori _ _ _ | .xoris _ _ _ | .lwz _ _ _
  | .lwzu _ _ _ | .lbz _ _ _ | .lbzu _ _ _ | .stw _ _ _ | .stwu _ _ _ | .stb _ _ _ | .stbu _ _ _ | .lhz _ _ _
  | .lhzu _ _ _ | .lha _ _ _ | .lhau _ _ _ | .sth _ _ _ | .sthu _ _ _ | .mcrf _ _ | .bclr _ _ _ | .bclrl _ _ _
  | .rfid | .crnor _ _ _ | .crandc _ _ _ | .isync | .crxor _ _ _ | .crnand _ _ _ | .crand _ _ _ | .hrfid
  | .creqv _ _ _ | .crorc _ _ _ | .cror _ _ _ | .bcctr _ _ _ | .bcctrl _ _ _ | .cmp _ _ _ _ | .tw _ _ _ | .mfcr _
  | .mfocrf _ _ | .lwarx _ _ _ | .ldx _ _ _ | .lwzx _ _ _ | .cmpl _ _ _ _ | .ldux _ _ _ | .dcbst _ _
  | .lwzux _ _ _ | .td _ _ _ | .mfmsr _ | .ldarx _ _ _ | .dcbf _ _ | .lbzx _ _ _ | .lbzux _ _ _ | .mtcrf _ _
  | .mtocrf _ _ | .mtmsr _ | .stdx _ _ _ | .stwcx _ _ _ | .stwx _ _ _ | .mtmsrd _ | .stdux _ _ _ | .stwux _ _ _
  | .stdcx _ _ _ | .stbx _ _ _ | .dcbtst _ _ | .stbux _ _ _ | .tlbiel _ | .dcbt _ _ | .lhzx _ _ _ | .tlbie _
  | .lhzux _ _ _ | .mfspr _ _ | .lwax _ _ _ | .lhax _ _ _ | .tlbia | .mftb _ _ | .lwaux _ _ _ | .lhaux _ _ _
  | .slbmte _ _ | .sthx _ _ _ | .slbie _ | .sthux _ _ _ | .mtspr _ _ | .slbia | .lwbrx _ _ _ | .tlbsync | .sync _
  | .stwbrx _ _ _ | .lhbrx _ _ _ | .slbmfev _ _ | .eieio | .slbmfee _ _ | .sthbrx _ _ _ | .icbi _ _ | .dcbz _ _
  | .ld _ _ _ | .ldu _ _ _ | .lwa _ _ _ | .std _ _ _ | .stdu _ _ _ | .reserved _ | .passthrough _ => false

/-- The OE bit of an XO-form instruction (10_state.md R48). -/
def overflowBit : Instr → Bool
  | .subfc _ _ _ oe _ | .addc _ _ _ oe _ | .subf _ _ _ oe _ | .neg _ _ oe _ | .subfe _ _ _ oe _ | .adde _ _ _ oe _
  | .subfze _ _ oe _ | .addze _ _ oe _ | .subfme _ _ oe _ | .mulld _ _ _ oe _ | .addme _ _ oe _
  | .mullw _ _ _ oe _ | .add _ _ _ oe _ | .divdu _ _ _ oe _ | .divwu _ _ _ oe _ | .divd _ _ _ oe _
  | .divw _ _ _ oe _ => oe
  | .tdi _ _ _ | .twi _ _ _ | .mulli _ _ _ | .subfic _ _ _ | .cmpli _ _ _ _ | .cmpi _ _ _ _ | .addic _ _ _
  | .addicRc _ _ _ | .li _ _ | .addi _ _ _ | .lis _ _ | .addis _ _ _ | .bc _ _ _ | .bca _ _ _ | .bcl _ _ _
  | .bcla _ _ _ | .sc _ | .b _ | .ba _ | .bl _ | .bla _ | .rlwimi _ _ _ _ _ _ | .rlwinm _ _ _ _ _ _
  | .rlwnm _ _ _ _ _ _ | .nop | .ori _ _ _ | .oris _ _ _ | .xori _ _ _ | .xoris _ _ _ | .andiRc _ _ _
  | .andisRc _ _ _ | .lwz _ _ _ | .lwzu _ _ _ | .lbz _ _ _ | .lbzu _ _ _ | .stw _ _ _ | .stwu _ _ _ | .stb _ _ _
  | .stbu _ _ _ | .lhz _ _ _ | .lhzu _ _ _ | .lha _ _ _ | .lhau _ _ _ | .sth _ _ _ | .sthu _ _ _ | .mcrf _ _
  | .bclr _ _ _ | .bclrl _ _ _ | .rfid | .crnor _ _ _ | .crandc _ _ _ | .isync | .crxor _ _ _ | .crnand _ _ _
  | .crand _ _ _ | .hrfid | .creqv _ _ _ | .crorc _ _ _ | .cror _ _ _ | .bcctr _ _ _ | .bcctrl _ _ _
  | .rldicl _ _ _ _ _ | .rldicr _ _ _ _ _ | .rldic _ _ _ _ _ | .rldimi _ _ _ _ _ | .rldcl _ _ _ _ _
  | .rldcr _ _ _ _ _ | .cmp _ _ _ _ | .tw _ _ _ | .mulhdu _ _ _ _ | .mulhwu _ _ _ _ | .mfcr _ | .mfocrf _ _
  | .lwarx _ _ _ | .ldx _ _ _ | .lwzx _ _ _ | .slw _ _ _ _ | .cntlzw _ _ _ | .sld _ _ _ _ | .and _ _ _ _
  | .cmpl _ _ _ _ | .ldux _ _ _ | .dcbst _ _ | .lwzux _ _ _ | .cntlzd _ _ _ | .andc _ _ _ _ | .td _ _ _
  | .mulhd _ _ _ _ | .mulhw _ _ _ _ | .mfmsr _ | .ldarx _ _ _ | .dcbf _ _ | .lbzx _ _ _ | .lbzux _ _ _
  | .nor _ _ _ _ | .mtcrf _ _ | .mtocrf _ _ | .mtmsr _ | .stdx _ _ _ | .stwcx _ _ _ | .stwx _ _ _ | .mtmsrd _
  | .stdux _ _ _ | .stwux _ _ _ | .stdcx _ _ _ | .stbx _ _ _ | .dcbtst _ _ | .stbux _ _ _ | .tlbiel _ | .dcbt _ _
  | .lhzx _ _ _ | .eqv _ _ _ _ | .tlbie _ | .lhzux _ _ _ | .xor _ _ _ _ | .mfspr _ _ | .lwax _ _ _ | .lhax _ _ _
  | .tlbia | .mftb _ _ | .lwaux _ _ _ | .lhaux _ _ _ | .slbmte _ _ | .sthx _ _ _ | .orc _ _ _ _ | .sradi _ _ _ _
  | .slbie _ | .sthux _ _ _ | .mr _ _ _ | .or _ _ _ _ | .mtspr _ _ | .nand _ _ _ _ | .slbia | .lwbrx _ _ _
  | .srw _ _ _ _ | .srd _ _ _ _ | .tlbsync | .sync _ | .stwbrx _ _ _ | .lhbrx _ _ _ | .sraw _ _ _ _
  | .srad _ _ _ _ | .srawi _ _ _ _ | .slbmfev _ _ | .eieio | .slbmfee _ _ | .sthbrx _ _ _ | .extsh _ _ _
  | .extsb _ _ _ | .icbi _ _ | .extsw _ _ _ | .dcbz _ _ | .ld _ _ _ | .ldu _ _ _ | .lwa _ _ _ | .std _ _ _
  | .stdu _ _ _ | .reserved _ | .passthrough _ => false

/-- The CA-producing instructions (30_encoding.md R138). -/
def carryProducing : Instr → Bool
  | .subfic _ _ _ | .addic _ _ _ | .addicRc _ _ _ | .subfc _ _ _ _ _ | .addc _ _ _ _ _ | .subfe _ _ _ _ _
  | .adde _ _ _ _ _ | .subfze _ _ _ _ | .addze _ _ _ _ | .subfme _ _ _ _ | .addme _ _ _ _ | .sradi _ _ _ _
  | .sraw _ _ _ _ | .srad _ _ _ _ | .srawi _ _ _ _ => true
  | .tdi _ _ _ | .twi _ _ _ | .mulli _ _ _ | .cmpli _ _ _ _ | .cmpi _ _ _ _ | .li _ _ | .addi _ _ _ | .lis _ _
  | .addis _ _ _ | .bc _ _ _ | .bca _ _ _ | .bcl _ _ _ | .bcla _ _ _ | .sc _ | .b _ | .ba _ | .bl _ | .bla _
  | .rlwimi _ _ _ _ _ _ | .rlwinm _ _ _ _ _ _ | .rlwnm _ _ _ _ _ _ | .nop | .ori _ _ _ | .oris _ _ _ | .xori _ _ _
  | .xoris _ _ _ | .andiRc _ _ _ | .andisRc _ _ _ | .lwz _ _ _ | .lwzu _ _ _ | .lbz _ _ _ | .lbzu _ _ _
  | .stw _ _ _ | .stwu _ _ _ | .stb _ _ _ | .stbu _ _ _ | .lhz _ _ _ | .lhzu _ _ _ | .lha _ _ _ | .lhau _ _ _
  | .sth _ _ _ | .sthu _ _ _ | .mcrf _ _ | .bclr _ _ _ | .bclrl _ _ _ | .rfid | .crnor _ _ _ | .crandc _ _ _
  | .isync | .crxor _ _ _ | .crnand _ _ _ | .crand _ _ _ | .hrfid | .creqv _ _ _ | .crorc _ _ _ | .cror _ _ _
  | .bcctr _ _ _ | .bcctrl _ _ _ | .rldicl _ _ _ _ _ | .rldicr _ _ _ _ _ | .rldic _ _ _ _ _ | .rldimi _ _ _ _ _
  | .rldcl _ _ _ _ _ | .rldcr _ _ _ _ _ | .cmp _ _ _ _ | .tw _ _ _ | .mulhdu _ _ _ _ | .mulhwu _ _ _ _ | .mfcr _
  | .mfocrf _ _ | .lwarx _ _ _ | .ldx _ _ _ | .lwzx _ _ _ | .slw _ _ _ _ | .cntlzw _ _ _ | .sld _ _ _ _
  | .and _ _ _ _ | .cmpl _ _ _ _ | .subf _ _ _ _ _ | .ldux _ _ _ | .dcbst _ _ | .lwzux _ _ _ | .cntlzd _ _ _
  | .andc _ _ _ _ | .td _ _ _ | .mulhd _ _ _ _ | .mulhw _ _ _ _ | .mfmsr _ | .ldarx _ _ _ | .dcbf _ _
  | .lbzx _ _ _ | .neg _ _ _ _ | .lbzux _ _ _ | .nor _ _ _ _ | .mtcrf _ _ | .mtocrf _ _ | .mtmsr _ | .stdx _ _ _
  | .stwcx _ _ _ | .stwx _ _ _ | .mtmsrd _ | .stdux _ _ _ | .stwux _ _ _ | .stdcx _ _ _ | .stbx _ _ _
  | .mulld _ _ _ _ _ | .mullw _ _ _ _ _ | .dcbtst _ _ | .stbux _ _ _ | .add _ _ _ _ _ | .tlbiel _ | .dcbt _ _
  | .lhzx _ _ _ | .eqv _ _ _ _ | .tlbie _ | .lhzux _ _ _ | .xor _ _ _ _ | .mfspr _ _ | .lwax _ _ _ | .lhax _ _ _
  | .tlbia | .mftb _ _ | .lwaux _ _ _ | .lhaux _ _ _ | .slbmte _ _ | .sthx _ _ _ | .orc _ _ _ _ | .slbie _
  | .sthux _ _ _ | .mr _ _ _ | .or _ _ _ _ | .divdu _ _ _ _ _ | .divwu _ _ _ _ _ | .mtspr _ _ | .nand _ _ _ _
  | .divd _ _ _ _ _ | .divw _ _ _ _ _ | .slbia | .lwbrx _ _ _ | .srw _ _ _ _ | .srd _ _ _ _ | .tlbsync | .sync _
  | .stwbrx _ _ _ | .lhbrx _ _ _ | .slbmfev _ _ | .eieio | .slbmfee _ _ | .sthbrx _ _ _ | .extsh _ _ _
  | .extsb _ _ _ | .icbi _ _ | .extsw _ _ _ | .dcbz _ _ | .ld _ _ _ | .ldu _ _ _ | .lwa _ _ _ | .std _ _ _
  | .stdu _ _ _ | .reserved _ | .passthrough _ => false

/-- The four compares (44 R400). -/
def isCompare : Instr → Bool
  | .cmpli _ _ _ _ | .cmpi _ _ _ _ | .cmp _ _ _ _ | .cmpl _ _ _ _ => true
  | .tdi _ _ _ | .twi _ _ _ | .mulli _ _ _ | .subfic _ _ _ | .addic _ _ _ | .addicRc _ _ _ | .li _ _ | .addi _ _ _
  | .lis _ _ | .addis _ _ _ | .bc _ _ _ | .bca _ _ _ | .bcl _ _ _ | .bcla _ _ _ | .sc _ | .b _ | .ba _ | .bl _
  | .bla _ | .rlwimi _ _ _ _ _ _ | .rlwinm _ _ _ _ _ _ | .rlwnm _ _ _ _ _ _ | .nop | .ori _ _ _ | .oris _ _ _
  | .xori _ _ _ | .xoris _ _ _ | .andiRc _ _ _ | .andisRc _ _ _ | .lwz _ _ _ | .lwzu _ _ _ | .lbz _ _ _
  | .lbzu _ _ _ | .stw _ _ _ | .stwu _ _ _ | .stb _ _ _ | .stbu _ _ _ | .lhz _ _ _ | .lhzu _ _ _ | .lha _ _ _
  | .lhau _ _ _ | .sth _ _ _ | .sthu _ _ _ | .mcrf _ _ | .bclr _ _ _ | .bclrl _ _ _ | .rfid | .crnor _ _ _
  | .crandc _ _ _ | .isync | .crxor _ _ _ | .crnand _ _ _ | .crand _ _ _ | .hrfid | .creqv _ _ _ | .crorc _ _ _
  | .cror _ _ _ | .bcctr _ _ _ | .bcctrl _ _ _ | .rldicl _ _ _ _ _ | .rldicr _ _ _ _ _ | .rldic _ _ _ _ _
  | .rldimi _ _ _ _ _ | .rldcl _ _ _ _ _ | .rldcr _ _ _ _ _ | .tw _ _ _ | .subfc _ _ _ _ _ | .mulhdu _ _ _ _
  | .addc _ _ _ _ _ | .mulhwu _ _ _ _ | .mfcr _ | .mfocrf _ _ | .lwarx _ _ _ | .ldx _ _ _ | .lwzx _ _ _
  | .slw _ _ _ _ | .cntlzw _ _ _ | .sld _ _ _ _ | .and _ _ _ _ | .subf _ _ _ _ _ | .ldux _ _ _ | .dcbst _ _
  | .lwzux _ _ _ | .cntlzd _ _ _ | .andc _ _ _ _ | .td _ _ _ | .mulhd _ _ _ _ | .mulhw _ _ _ _ | .mfmsr _
  | .ldarx _ _ _ | .dcbf _ _ | .lbzx _ _ _ | .neg _ _ _ _ | .lbzux _ _ _ | .nor _ _ _ _ | .subfe _ _ _ _ _
  | .adde _ _ _ _ _ | .mtcrf _ _ | .mtocrf _ _ | .mtmsr _ | .stdx _ _ _ | .stwcx _ _ _ | .stwx _ _ _ | .mtmsrd _
  | .stdux _ _ _ | .stwux _ _ _ | .subfze _ _ _ _ | .addze _ _ _ _ | .stdcx _ _ _ | .stbx _ _ _ | .subfme _ _ _ _
  | .mulld _ _ _ _ _ | .addme _ _ _ _ | .mullw _ _ _ _ _ | .dcbtst _ _ | .stbux _ _ _ | .add _ _ _ _ _ | .tlbiel _
  | .dcbt _ _ | .lhzx _ _ _ | .eqv _ _ _ _ | .tlbie _ | .lhzux _ _ _ | .xor _ _ _ _ | .mfspr _ _ | .lwax _ _ _
  | .lhax _ _ _ | .tlbia | .mftb _ _ | .lwaux _ _ _ | .lhaux _ _ _ | .slbmte _ _ | .sthx _ _ _ | .orc _ _ _ _
  | .sradi _ _ _ _ | .slbie _ | .sthux _ _ _ | .mr _ _ _ | .or _ _ _ _ | .divdu _ _ _ _ _ | .divwu _ _ _ _ _
  | .mtspr _ _ | .nand _ _ _ _ | .divd _ _ _ _ _ | .divw _ _ _ _ _ | .slbia | .lwbrx _ _ _ | .srw _ _ _ _
  | .srd _ _ _ _ | .tlbsync | .sync _ | .stwbrx _ _ _ | .lhbrx _ _ _ | .sraw _ _ _ _ | .srad _ _ _ _
  | .srawi _ _ _ _ | .slbmfev _ _ | .eieio | .slbmfee _ _ | .sthbrx _ _ _ | .extsh _ _ _ | .extsb _ _ _
  | .icbi _ _ | .extsw _ _ _ | .dcbz _ _ | .ld _ _ _ | .ldu _ _ _ | .lwa _ _ _ | .std _ _ _ | .stdu _ _ _
  | .reserved _ | .passthrough _ => false

/-- The flag-write request: bit 0 comparison flags, bit 1 carry (10_state.md R44; 30_encoding.md R138). -/
def flagRequest (i : Instr) : BitVec 2 :=
  BitVec.ofBool (carryProducing i) ++ BitVec.ofBool (recordBit i || isCompare i)

/-- Every operand of 30_encoding.md R118 that an instruction's rule uses, in the order of that table: a shift amount
before the mask bounds. -/
def immediateOperands : Instr → List Word
  | .lis _ si | .addis _ _ si => [siShifted si]
  | .tdi _ _ si | .twi _ _ si | .mulli _ _ si | .subfic _ _ si | .cmpi _ _ _ si | .addic _ _ si | .addicRc _ _ si
  | .li _ si | .addi _ _ si => [sext si]
  | .oris _ _ ui | .xoris _ _ ui | .andisRc _ _ ui => [uiShifted ui]
  | .cmpli _ _ _ ui | .ori _ _ ui | .xori _ _ ui | .andiRc _ _ ui => [zext ui]
  | .lwz _ _ d | .lwzu _ _ d | .lbz _ _ d | .lbzu _ _ d | .stw _ _ d | .stwu _ _ d | .stb _ _ d | .stbu _ _ d
  | .lhz _ _ d | .lhzu _ _ d | .lha _ _ d | .lhau _ _ d | .sth _ _ d | .sthu _ _ d => [sext d]
  | .ld _ _ ds | .ldu _ _ ds | .lwa _ _ ds | .std _ _ ds | .stdu _ _ ds => [dispDS ds]
  | .b li | .ba li | .bl li | .bla li => [dispLI li]
  | .bc _ _ bd | .bca _ _ bd | .bcl _ _ bd | .bcla _ _ bd => [dispBD bd]
  | .rlwimi _ _ sh mb me _ | .rlwinm _ _ sh mb me _ => [zext sh, zext mb, zext me]
  | .rlwnm _ _ _ mb me _ => [zext mb, zext me]
  | .srawi _ _ sh _ => [zext sh]
  | .rldicl _ _ sh mbe _ | .rldicr _ _ sh mbe _ | .rldic _ _ sh mbe _ | .rldimi _ _ sh mbe _ => [zext sh, zext mbe]
  | .sradi _ _ sh _ => [zext sh]
  | .rldcl _ _ _ mbe _ | .rldcr _ _ _ mbe _ => [zext mbe]
  | .sc _ | .nop | .mcrf _ _ | .bclr _ _ _ | .bclrl _ _ _ | .rfid | .crnor _ _ _
  | .crandc _ _ _ | .isync | .crxor _ _ _ | .crnand _ _ _ | .crand _ _ _ | .hrfid | .creqv _ _ _ | .crorc _ _ _
  | .cror _ _ _ | .bcctr _ _ _ | .bcctrl _ _ _ | .cmp _ _ _ _ | .tw _ _ _
  | .subfc _ _ _ _ _ | .mulhdu _ _ _ _ | .addc _ _ _ _ _ | .mulhwu _ _ _ _ | .mfcr _ | .mfocrf _ _ | .lwarx _ _ _
  | .ldx _ _ _ | .lwzx _ _ _ | .slw _ _ _ _ | .cntlzw _ _ _ | .sld _ _ _ _ | .and _ _ _ _ | .cmpl _ _ _ _
  | .subf _ _ _ _ _ | .ldux _ _ _ | .dcbst _ _ | .lwzux _ _ _ | .cntlzd _ _ _ | .andc _ _ _ _ | .td _ _ _
  | .mulhd _ _ _ _ | .mulhw _ _ _ _ | .mfmsr _ | .ldarx _ _ _ | .dcbf _ _ | .lbzx _ _ _ | .neg _ _ _ _
  | .lbzux _ _ _ | .nor _ _ _ _ | .subfe _ _ _ _ _ | .adde _ _ _ _ _ | .mtcrf _ _ | .mtocrf _ _ | .mtmsr _
  | .stdx _ _ _ | .stwcx _ _ _ | .stwx _ _ _ | .mtmsrd _ | .stdux _ _ _ | .stwux _ _ _ | .subfze _ _ _ _
  | .addze _ _ _ _ | .stdcx _ _ _ | .stbx _ _ _ | .subfme _ _ _ _ | .mulld _ _ _ _ _ | .addme _ _ _ _
  | .mullw _ _ _ _ _ | .dcbtst _ _ | .stbux _ _ _ | .add _ _ _ _ _ | .tlbiel _ | .dcbt _ _ | .lhzx _ _ _
  | .eqv _ _ _ _ | .tlbie _ | .lhzux _ _ _ | .xor _ _ _ _ | .mfspr _ _ | .lwax _ _ _ | .lhax _ _ _ | .tlbia
  | .mftb _ _ | .lwaux _ _ _ | .lhaux _ _ _ | .slbmte _ _ | .sthx _ _ _ | .orc _ _ _ _ | .slbie _ | .sthux _ _ _
  | .mr _ _ _ | .or _ _ _ _ | .divdu _ _ _ _ _ | .divwu _ _ _ _ _ | .mtspr _ _ | .nand _ _ _ _ | .divd _ _ _ _ _
  | .divw _ _ _ _ _ | .slbia | .lwbrx _ _ _ | .srw _ _ _ _ | .srd _ _ _ _ | .tlbsync | .sync _ | .stwbrx _ _ _
  | .lhbrx _ _ _ | .sraw _ _ _ _ | .srad _ _ _ _ | .slbmfev _ _ | .eieio | .slbmfee _ _ | .sthbrx _ _ _
  | .extsh _ _ _ | .extsb _ _ _ | .icbi _ _ | .extsw _ _ _ | .dcbz _ _ | .reserved _ | .passthrough _ => []

/-- The `imm` output: the operand of 30_encoding.md R118 that the instruction's rule uses (R138). The rotates that use
two or three of them report the first: SH or sh, and for rlwnm MB (DESIGN CHOICE, assumption log 16). -/
def immediate (i : Instr) : Option Word := (immediateOperands i).head?

/-- The rotate-mask output of the M, MD and MDS instructions (30_encoding.md R138; 45 R451 to R459). -/
def maskOutput : Instr → Option Word
  | .rlwimi _ _ _ mb me _ | .rlwinm _ _ _ mb me _ | .rlwnm _ _ _ mb me _ => some (wordMask mb me)
  | .rldicl _ _ _ mb _ | .rldcl _ _ _ mb _ => some (rotateMask mb.toNat 63)
  | .rldicr _ _ _ me _ | .rldcr _ _ _ me _ => some (rotateMask 0 me.toNat)
  | .rldic _ _ sh mb _ | .rldimi _ _ sh mb _ => some (rotateMask mb.toNat (63 - sh.toNat))
  | .tdi _ _ _ | .twi _ _ _ | .mulli _ _ _ | .subfic _ _ _ | .cmpli _ _ _ _ | .cmpi _ _ _ _ | .addic _ _ _
  | .addicRc _ _ _ | .li _ _ | .addi _ _ _ | .lis _ _ | .addis _ _ _ | .bc _ _ _ | .bca _ _ _ | .bcl _ _ _
  | .bcla _ _ _ | .sc _ | .b _ | .ba _ | .bl _ | .bla _ | .nop | .ori _ _ _ | .oris _ _ _ | .xori _ _ _
  | .xoris _ _ _ | .andiRc _ _ _ | .andisRc _ _ _ | .lwz _ _ _ | .lwzu _ _ _ | .lbz _ _ _ | .lbzu _ _ _
  | .stw _ _ _ | .stwu _ _ _ | .stb _ _ _ | .stbu _ _ _ | .lhz _ _ _ | .lhzu _ _ _ | .lha _ _ _ | .lhau _ _ _
  | .sth _ _ _ | .sthu _ _ _ | .mcrf _ _ | .bclr _ _ _ | .bclrl _ _ _ | .rfid | .crnor _ _ _ | .crandc _ _ _
  | .isync | .crxor _ _ _ | .crnand _ _ _ | .crand _ _ _ | .hrfid | .creqv _ _ _ | .crorc _ _ _ | .cror _ _ _
  | .bcctr _ _ _ | .bcctrl _ _ _ | .cmp _ _ _ _ | .tw _ _ _ | .subfc _ _ _ _ _ | .mulhdu _ _ _ _ | .addc _ _ _ _ _
  | .mulhwu _ _ _ _ | .mfcr _ | .mfocrf _ _ | .lwarx _ _ _ | .ldx _ _ _ | .lwzx _ _ _ | .slw _ _ _ _
  | .cntlzw _ _ _ | .sld _ _ _ _ | .and _ _ _ _ | .cmpl _ _ _ _ | .subf _ _ _ _ _ | .ldux _ _ _ | .dcbst _ _
  | .lwzux _ _ _ | .cntlzd _ _ _ | .andc _ _ _ _ | .td _ _ _ | .mulhd _ _ _ _ | .mulhw _ _ _ _ | .mfmsr _
  | .ldarx _ _ _ | .dcbf _ _ | .lbzx _ _ _ | .neg _ _ _ _ | .lbzux _ _ _ | .nor _ _ _ _ | .subfe _ _ _ _ _
  | .adde _ _ _ _ _ | .mtcrf _ _ | .mtocrf _ _ | .mtmsr _ | .stdx _ _ _ | .stwcx _ _ _ | .stwx _ _ _ | .mtmsrd _
  | .stdux _ _ _ | .stwux _ _ _ | .subfze _ _ _ _ | .addze _ _ _ _ | .stdcx _ _ _ | .stbx _ _ _ | .subfme _ _ _ _
  | .mulld _ _ _ _ _ | .addme _ _ _ _ | .mullw _ _ _ _ _ | .dcbtst _ _ | .stbux _ _ _ | .add _ _ _ _ _ | .tlbiel _
  | .dcbt _ _ | .lhzx _ _ _ | .eqv _ _ _ _ | .tlbie _ | .lhzux _ _ _ | .xor _ _ _ _ | .mfspr _ _ | .lwax _ _ _
  | .lhax _ _ _ | .tlbia | .mftb _ _ | .lwaux _ _ _ | .lhaux _ _ _ | .slbmte _ _ | .sthx _ _ _ | .orc _ _ _ _
  | .sradi _ _ _ _ | .slbie _ | .sthux _ _ _ | .mr _ _ _ | .or _ _ _ _ | .divdu _ _ _ _ _ | .divwu _ _ _ _ _
  | .mtspr _ _ | .nand _ _ _ _ | .divd _ _ _ _ _ | .divw _ _ _ _ _ | .slbia | .lwbrx _ _ _ | .srw _ _ _ _
  | .srd _ _ _ _ | .tlbsync | .sync _ | .stwbrx _ _ _ | .lhbrx _ _ _ | .sraw _ _ _ _ | .srad _ _ _ _
  | .srawi _ _ _ _ | .slbmfev _ _ | .eieio | .slbmfee _ _ | .sthbrx _ _ _ | .extsh _ _ _ | .extsb _ _ _
  | .icbi _ _ | .extsw _ _ _ | .dcbz _ _ | .ld _ _ _ | .ldu _ _ _ | .lwa _ _ _ | .std _ _ _ | .stdu _ _ _
  | .reserved _ | .passthrough _ => none

/-- The branch record of a branch instruction at an address (40_branch.md R200). -/
def branchInfo (addr : Word) : Instr → Option BranchInfo
  | .b li => some (unconditionalInfo false false (dispLI li) addr)
  | .ba li => some (unconditionalInfo true false (dispLI li) addr)
  | .bl li => some (unconditionalInfo false true (dispLI li) addr)
  | .bla li => some (unconditionalInfo true true (dispLI li) addr)
  | .bc bo bi bd => some (infoB false false bo bi bd addr)
  | .bca bo bi bd => some (infoB true false bo bi bd addr)
  | .bcl bo bi bd => some (infoB false true bo bi bd addr)
  | .bcla bo bi bd => some (infoB true true bo bi bd addr)
  | .bclr bo bi _ => some (conditionalInfo .lr none bo bi false)
  | .bclrl bo bi _ => some (conditionalInfo .lr none bo bi true)
  | .bcctr bo bi _ => some (conditionalInfo .ctr none bo bi false)
  | .bcctrl bo bi _ => some (conditionalInfo .ctr none bo bi true)
  | .tdi _ _ _ | .twi _ _ _ | .mulli _ _ _ | .subfic _ _ _ | .cmpli _ _ _ _ | .cmpi _ _ _ _ | .addic _ _ _
  | .addicRc _ _ _ | .li _ _ | .addi _ _ _ | .lis _ _ | .addis _ _ _ | .sc _ | .rlwimi _ _ _ _ _ _
  | .rlwinm _ _ _ _ _ _ | .rlwnm _ _ _ _ _ _ | .nop | .ori _ _ _ | .oris _ _ _ | .xori _ _ _ | .xoris _ _ _
  | .andiRc _ _ _ | .andisRc _ _ _ | .lwz _ _ _ | .lwzu _ _ _ | .lbz _ _ _ | .lbzu _ _ _ | .stw _ _ _
  | .stwu _ _ _ | .stb _ _ _ | .stbu _ _ _ | .lhz _ _ _ | .lhzu _ _ _ | .lha _ _ _ | .lhau _ _ _ | .sth _ _ _
  | .sthu _ _ _ | .mcrf _ _ | .rfid | .crnor _ _ _ | .crandc _ _ _ | .isync | .crxor _ _ _ | .crnand _ _ _
  | .crand _ _ _ | .hrfid | .creqv _ _ _ | .crorc _ _ _ | .cror _ _ _ | .rldicl _ _ _ _ _ | .rldicr _ _ _ _ _
  | .rldic _ _ _ _ _ | .rldimi _ _ _ _ _ | .rldcl _ _ _ _ _ | .rldcr _ _ _ _ _ | .cmp _ _ _ _ | .tw _ _ _
  | .subfc _ _ _ _ _ | .mulhdu _ _ _ _ | .addc _ _ _ _ _ | .mulhwu _ _ _ _ | .mfcr _ | .mfocrf _ _ | .lwarx _ _ _
  | .ldx _ _ _ | .lwzx _ _ _ | .slw _ _ _ _ | .cntlzw _ _ _ | .sld _ _ _ _ | .and _ _ _ _ | .cmpl _ _ _ _
  | .subf _ _ _ _ _ | .ldux _ _ _ | .dcbst _ _ | .lwzux _ _ _ | .cntlzd _ _ _ | .andc _ _ _ _ | .td _ _ _
  | .mulhd _ _ _ _ | .mulhw _ _ _ _ | .mfmsr _ | .ldarx _ _ _ | .dcbf _ _ | .lbzx _ _ _ | .neg _ _ _ _
  | .lbzux _ _ _ | .nor _ _ _ _ | .subfe _ _ _ _ _ | .adde _ _ _ _ _ | .mtcrf _ _ | .mtocrf _ _ | .mtmsr _
  | .stdx _ _ _ | .stwcx _ _ _ | .stwx _ _ _ | .mtmsrd _ | .stdux _ _ _ | .stwux _ _ _ | .subfze _ _ _ _
  | .addze _ _ _ _ | .stdcx _ _ _ | .stbx _ _ _ | .subfme _ _ _ _ | .mulld _ _ _ _ _ | .addme _ _ _ _
  | .mullw _ _ _ _ _ | .dcbtst _ _ | .stbux _ _ _ | .add _ _ _ _ _ | .tlbiel _ | .dcbt _ _ | .lhzx _ _ _
  | .eqv _ _ _ _ | .tlbie _ | .lhzux _ _ _ | .xor _ _ _ _ | .mfspr _ _ | .lwax _ _ _ | .lhax _ _ _ | .tlbia
  | .mftb _ _ | .lwaux _ _ _ | .lhaux _ _ _ | .slbmte _ _ | .sthx _ _ _ | .orc _ _ _ _ | .sradi _ _ _ _ | .slbie _
  | .sthux _ _ _ | .mr _ _ _ | .or _ _ _ _ | .divdu _ _ _ _ _ | .divwu _ _ _ _ _ | .mtspr _ _ | .nand _ _ _ _
  | .divd _ _ _ _ _ | .divw _ _ _ _ _ | .slbia | .lwbrx _ _ _ | .srw _ _ _ _ | .srd _ _ _ _ | .tlbsync | .sync _
  | .stwbrx _ _ _ | .lhbrx _ _ _ | .sraw _ _ _ _ | .srad _ _ _ _ | .srawi _ _ _ _ | .slbmfev _ _ | .eieio
  | .slbmfee _ _ | .sthbrx _ _ _ | .extsh _ _ _ | .extsb _ _ _ | .icbi _ _ | .extsw _ _ _ | .dcbz _ _ | .ld _ _ _
  | .ldu _ _ _ | .lwa _ _ _ | .std _ _ _ | .stdu _ _ _ | .reserved _ | .passthrough _ => none

/-- An input operand expression of an intrinsic (46_system.md R507). -/
inductive IntrinsicInput where
  | gpr (r : Reg)
  | gprOrZero (r : Reg)
  | field (v : Nat)
  | imm (v : Word)
deriving DecidableEq, Repr

/-- The intrinsic record: the symbolic operation, its inputs in order, and its output register (46_system.md R505,
R507; 30_encoding.md R139). -/
structure IntrinsicRecord where
  op : Intrinsic
  inputs : List IntrinsicInput
  output : Option Reg
deriving DecidableEq, Repr

/-- The intrinsic record of an instruction, `none` for one that is no intrinsic. -/
def intrinsicRecord : Instr → Option IntrinsicRecord
  | .sync l => some ⟨.sync, [.field l.toNat], none⟩
  | .eieio => some ⟨.eieio, [], none⟩
  | .isync => some ⟨.isync, [], none⟩
  | .dcbt ra rb => some ⟨.dcbt, [.gprOrZero ra, .gpr rb], none⟩
  | .dcbtst ra rb => some ⟨.dcbtst, [.gprOrZero ra, .gpr rb], none⟩
  | .dcbst ra rb => some ⟨.dcbst, [.gprOrZero ra, .gpr rb], none⟩
  | .dcbf ra rb => some ⟨.dcbf, [.gprOrZero ra, .gpr rb], none⟩
  | .icbi ra rb => some ⟨.icbi, [.gprOrZero ra, .gpr rb], none⟩
  | .dcbz ra rb => some ⟨.dcbz, [.gprOrZero ra, .gpr rb], none⟩
  | .tlbie rb => some ⟨.tlbie, [.gpr rb], none⟩
  | .tlbiel rb => some ⟨.tlbiel, [.gpr rb], none⟩
  | .tlbia => some ⟨.tlbia, [], none⟩
  | .tlbsync => some ⟨.tlbsync, [], none⟩
  | .slbmte rs rb => some ⟨.slbmte, [.gpr rs, .gpr rb], none⟩
  | .slbie rb => some ⟨.slbie, [.gpr rb], none⟩
  | .slbia => some ⟨.slbia, [], none⟩
  | .slbmfev rt rb => some ⟨.slbmfev, [.gpr rb], some rt⟩
  | .slbmfee rt rb => some ⟨.slbmfee, [.gpr rb], some rt⟩
  | .lwarx rt ra rb => some ⟨.lwarx, [.gprOrZero ra, .gpr rb], some rt⟩
  | .ldarx rt ra rb => some ⟨.ldarx, [.gprOrZero ra, .gpr rb], some rt⟩
  | .stwcx rs ra rb => some ⟨.stwcx, [.gpr rs, .gprOrZero ra, .gpr rb], none⟩
  | .stdcx rs ra rb => some ⟨.stdcx, [.gpr rs, .gprOrZero ra, .gpr rb], none⟩
  | .mfmsr rt => some ⟨.mfmsr, [], some rt⟩
  | .mtmsr rs => some ⟨.mtmsr, [.gpr rs], none⟩
  | .mtmsrd rs => some ⟨.mtmsrd, [.gpr rs], none⟩
  | .rfid => some ⟨.rfid, [], none⟩
  | .hrfid => some ⟨.hrfid, [], none⟩
  | .mftb rt tbr => some ⟨.mftb, [.field tbr.toNat], some rt⟩
  | .sc lev => some ⟨.sc, [.field lev.toNat], none⟩
  | .tw toBits ra rb => some ⟨.tw, [.field toBits.toNat, .gpr ra, .gpr rb], none⟩
  | .twi toBits ra si => some ⟨.twi, [.field toBits.toNat, .gpr ra, .imm (sext si)], none⟩
  | .td toBits ra rb => some ⟨.td, [.field toBits.toNat, .gpr ra, .gpr rb], none⟩
  | .tdi toBits ra si => some ⟨.tdi, [.field toBits.toNat, .gpr ra, .imm (sext si)], none⟩
  | .mulli _ _ _ | .subfic _ _ _ | .cmpli _ _ _ _ | .cmpi _ _ _ _ | .addic _ _ _ | .addicRc _ _ _ | .li _ _
  | .addi _ _ _ | .lis _ _ | .addis _ _ _ | .bc _ _ _ | .bca _ _ _ | .bcl _ _ _ | .bcla _ _ _ | .b _ | .ba _
  | .bl _ | .bla _ | .rlwimi _ _ _ _ _ _ | .rlwinm _ _ _ _ _ _ | .rlwnm _ _ _ _ _ _ | .nop | .ori _ _ _
  | .oris _ _ _ | .xori _ _ _ | .xoris _ _ _ | .andiRc _ _ _ | .andisRc _ _ _ | .lwz _ _ _ | .lwzu _ _ _
  | .lbz _ _ _ | .lbzu _ _ _ | .stw _ _ _ | .stwu _ _ _ | .stb _ _ _ | .stbu _ _ _ | .lhz _ _ _ | .lhzu _ _ _
  | .lha _ _ _ | .lhau _ _ _ | .sth _ _ _ | .sthu _ _ _ | .mcrf _ _ | .bclr _ _ _ | .bclrl _ _ _ | .crnor _ _ _
  | .crandc _ _ _ | .crxor _ _ _ | .crnand _ _ _ | .crand _ _ _ | .creqv _ _ _ | .crorc _ _ _ | .cror _ _ _
  | .bcctr _ _ _ | .bcctrl _ _ _ | .rldicl _ _ _ _ _ | .rldicr _ _ _ _ _ | .rldic _ _ _ _ _ | .rldimi _ _ _ _ _
  | .rldcl _ _ _ _ _ | .rldcr _ _ _ _ _ | .cmp _ _ _ _ | .subfc _ _ _ _ _ | .mulhdu _ _ _ _ | .addc _ _ _ _ _
  | .mulhwu _ _ _ _ | .mfcr _ | .mfocrf _ _ | .ldx _ _ _ | .lwzx _ _ _ | .slw _ _ _ _ | .cntlzw _ _ _
  | .sld _ _ _ _ | .and _ _ _ _ | .cmpl _ _ _ _ | .subf _ _ _ _ _ | .ldux _ _ _ | .lwzux _ _ _ | .cntlzd _ _ _
  | .andc _ _ _ _ | .mulhd _ _ _ _ | .mulhw _ _ _ _ | .lbzx _ _ _ | .neg _ _ _ _ | .lbzux _ _ _ | .nor _ _ _ _
  | .subfe _ _ _ _ _ | .adde _ _ _ _ _ | .mtcrf _ _ | .mtocrf _ _ | .stdx _ _ _ | .stwx _ _ _ | .stdux _ _ _
  | .stwux _ _ _ | .subfze _ _ _ _ | .addze _ _ _ _ | .stbx _ _ _ | .subfme _ _ _ _ | .mulld _ _ _ _ _
  | .addme _ _ _ _ | .mullw _ _ _ _ _ | .stbux _ _ _ | .add _ _ _ _ _ | .lhzx _ _ _ | .eqv _ _ _ _ | .lhzux _ _ _
  | .xor _ _ _ _ | .mfspr _ _ | .lwax _ _ _ | .lhax _ _ _ | .lwaux _ _ _ | .lhaux _ _ _ | .sthx _ _ _
  | .orc _ _ _ _ | .sradi _ _ _ _ | .sthux _ _ _ | .mr _ _ _ | .or _ _ _ _ | .divdu _ _ _ _ _ | .divwu _ _ _ _ _
  | .mtspr _ _ | .nand _ _ _ _ | .divd _ _ _ _ _ | .divw _ _ _ _ _ | .lwbrx _ _ _ | .srw _ _ _ _ | .srd _ _ _ _
  | .stwbrx _ _ _ | .lhbrx _ _ _ | .sraw _ _ _ _ | .srad _ _ _ _ | .srawi _ _ _ _ | .sthbrx _ _ _ | .extsh _ _ _
  | .extsb _ _ _ | .extsw _ _ _ | .ld _ _ _ | .ldu _ _ _ | .lwa _ _ _ | .std _ _ _ | .stdu _ _ _ | .reserved _
  | .passthrough _ => none

end Sys2Proof.Machine
end

