-- ==== Sys2Proof/Machine/TextForm.lean ====
section
/-! DEFINITION. The text backend (30_encoding.md R160 to R168) and the whole decoder block: every output of
10_state.md R33 for a word at an address. -/

namespace Sys2Proof.Machine

/-- A token (R160). -/
inductive Token where
  | mnemonic (text : String)
  | register (ident : Nat)
  | immediate (value : Nat)
  | punctuation (text : String)
deriving DecidableEq, Repr

/-- One operand of the text form: a register, a value, or a memory operand `D(RA)`, which counts as one (R161). -/
inductive TextOperand where
  | reg (r : Reg)
  | imm (v : Nat)
  | mem (disp : Nat) (ra : Reg)
deriving DecidableEq, Repr

/-- The tokens of one operand. -/
def TextOperand.tokens : TextOperand → List Token
  | .reg r => [.register (RegOperand.gpr r).ident]
  | .imm v => [.immediate v]
  | .mem disp ra =>
    [.immediate disp, .punctuation "(", .register (RegOperand.gpr ra).ident, .punctuation ")"]

/-- The operand tokens with their separators: the first operand is preceded by a space, every later one by a comma and
a space; `first` is the text backend's first-token flag (R161; 70 R700). -/
def renderOperands (first : Bool) : List TextOperand → List Token
  | [] => []
  | o :: rest => .punctuation (if first then " " else ", ") :: (o.tokens ++ renderOperands false rest)

/-- The mnemonic with its suffixes: "o" when OE = 1, "." when Rc = 1; andi., andis., addic., stwcx. and stdcx. carry
the "." in their names (R162). -/
def fullMnemonic (i : Instr) : String :=
  match i with
  | .addicRc _ _ _ | .andiRc _ _ _ | .andisRc _ _ _ => mnemonic i
  | .tdi _ _ _ | .twi _ _ _ | .mulli _ _ _ | .subfic _ _ _ | .cmpli _ _ _ _ | .cmpi _ _ _ _ | .addic _ _ _
  | .li _ _ | .addi _ _ _ | .lis _ _ | .addis _ _ _ | .bc _ _ _ | .bca _ _ _ | .bcl _ _ _ | .bcla _ _ _ | .sc _
  | .b _ | .ba _ | .bl _ | .bla _ | .rlwimi _ _ _ _ _ _ | .rlwinm _ _ _ _ _ _ | .rlwnm _ _ _ _ _ _ | .nop
  | .ori _ _ _ | .oris _ _ _ | .xori _ _ _ | .xoris _ _ _ | .lwz _ _ _ | .lwzu _ _ _ | .lbz _ _ _ | .lbzu _ _ _
  | .stw _ _ _ | .stwu _ _ _ | .stb _ _ _ | .stbu _ _ _ | .lhz _ _ _ | .lhzu _ _ _ | .lha _ _ _ | .lhau _ _ _
  | .sth _ _ _ | .sthu _ _ _ | .mcrf _ _ | .bclr _ _ _ | .bclrl _ _ _ | .rfid | .crnor _ _ _ | .crandc _ _ _
  | .isync | .crxor _ _ _ | .crnand _ _ _ | .crand _ _ _ | .hrfid | .creqv _ _ _ | .crorc _ _ _ | .cror _ _ _
  | .bcctr _ _ _ | .bcctrl _ _ _ | .rldicl _ _ _ _ _ | .rldicr _ _ _ _ _ | .rldic _ _ _ _ _ | .rldimi _ _ _ _ _
  | .rldcl _ _ _ _ _ | .rldcr _ _ _ _ _ | .cmp _ _ _ _ | .tw _ _ _ | .subfc _ _ _ _ _ | .mulhdu _ _ _ _
  | .addc _ _ _ _ _ | .mulhwu _ _ _ _ | .mfcr _ | .mfocrf _ _ | .lwarx _ _ _ | .ldx _ _ _ | .lwzx _ _ _
  | .slw _ _ _ _ | .cntlzw _ _ _ | .sld _ _ _ _ | .and _ _ _ _ | .cmpl _ _ _ _ | .subf _ _ _ _ _ | .ldux _ _ _
  | .dcbst _ _ | .lwzux _ _ _ | .cntlzd _ _ _ | .andc _ _ _ _ | .td _ _ _ | .mulhd _ _ _ _ | .mulhw _ _ _ _
  | .mfmsr _ | .ldarx _ _ _ | .dcbf _ _ | .lbzx _ _ _ | .neg _ _ _ _ | .lbzux _ _ _ | .nor _ _ _ _
  | .subfe _ _ _ _ _ | .adde _ _ _ _ _ | .mtcrf _ _ | .mtocrf _ _ | .mtmsr _ | .stdx _ _ _ | .stwcx _ _ _
  | .stwx _ _ _ | .mtmsrd _ | .stdux _ _ _ | .stwux _ _ _ | .subfze _ _ _ _ | .addze _ _ _ _ | .stdcx _ _ _
  | .stbx _ _ _ | .subfme _ _ _ _ | .mulld _ _ _ _ _ | .addme _ _ _ _ | .mullw _ _ _ _ _ | .dcbtst _ _
  | .stbux _ _ _ | .add _ _ _ _ _ | .tlbiel _ | .dcbt _ _ | .lhzx _ _ _ | .eqv _ _ _ _ | .tlbie _ | .lhzux _ _ _
  | .xor _ _ _ _ | .mfspr _ _ | .lwax _ _ _ | .lhax _ _ _ | .tlbia | .mftb _ _ | .lwaux _ _ _ | .lhaux _ _ _
  | .slbmte _ _ | .sthx _ _ _ | .orc _ _ _ _ | .sradi _ _ _ _ | .slbie _ | .sthux _ _ _ | .mr _ _ _ | .or _ _ _ _
  | .divdu _ _ _ _ _ | .divwu _ _ _ _ _ | .mtspr _ _ | .nand _ _ _ _ | .divd _ _ _ _ _ | .divw _ _ _ _ _ | .slbia
  | .lwbrx _ _ _ | .srw _ _ _ _ | .srd _ _ _ _ | .tlbsync | .sync _ | .stwbrx _ _ _ | .lhbrx _ _ _ | .sraw _ _ _ _
  | .srad _ _ _ _ | .srawi _ _ _ _ | .slbmfev _ _ | .eieio | .slbmfee _ _ | .sthbrx _ _ _ | .extsh _ _ _
  | .extsb _ _ _ | .icbi _ _ | .extsw _ _ _ | .dcbz _ _ | .ld _ _ _ | .ldu _ _ _ | .lwa _ _ _ | .std _ _ _
  | .stdu _ _ _ | .reserved _ | .passthrough _ => 
    mnemonic i ++ (if overflowBit i then "o" else "") ++ (if recordBit i then "." else "")

/-- The operands of an instruction in the order of the table's `syntax` (R163), raw patterns displayed as unsigned
values (R164, R165), a branch target as the address of 40_branch.md R201 (R166), a DS displacement as `W[15:0] & 0xFFFC`
(R164). -/
def textOperands (addr : Word) : Instr → List TextOperand
  | .tdi toBits ra si | .twi toBits ra si => [.imm toBits.toNat, .reg ra, .imm si.toNat]
  | .mulli rt ra si | .subfic rt ra si | .addic rt ra si | .addicRc rt ra si | .addi rt ra si | .addis rt ra si => [.reg rt, .reg ra, .imm si.toNat]
  | .cmpli bf l ra ui => [.imm bf.toNat, .imm l.toNat, .reg ra, .imm ui.toNat]
  | .cmpi bf l ra si => [.imm bf.toNat, .imm l.toNat, .reg ra, .imm si.toNat]
  | .li rt si | .lis rt si => [.reg rt, .imm si.toNat]
  | .bc bo bi bd | .bcl bo bi bd => [.imm bo.toNat, .imm bi.toNat, .imm (branchTarget false (dispBD bd) addr).toNat]
  | .bca bo bi bd | .bcla bo bi bd => [.imm bo.toNat, .imm bi.toNat, .imm (branchTarget true (dispBD bd) addr).toNat]
  | .sc _ | .nop | .rfid | .isync | .hrfid | .tlbia | .slbia | .tlbsync | .eieio => []
  | .b li | .bl li => [.imm (branchTarget false (dispLI li) addr).toNat]
  | .ba li | .bla li => [.imm (branchTarget true (dispLI li) addr).toNat]
  | .rlwimi rs ra sh mb me _ | .rlwinm rs ra sh mb me _ => [.reg ra, .reg rs, .imm sh.toNat, .imm mb.toNat, .imm me.toNat]
  | .rlwnm rs ra rb mb me _ => [.reg ra, .reg rs, .reg rb, .imm mb.toNat, .imm me.toNat]
  | .ori rs ra ui | .oris rs ra ui | .xori rs ra ui | .xoris rs ra ui | .andiRc rs ra ui | .andisRc rs ra ui => [.reg ra, .reg rs, .imm ui.toNat]
  | .lwz rt ra d | .lwzu rt ra d | .lbz rt ra d | .lbzu rt ra d | .lhz rt ra d | .lhzu rt ra d | .lha rt ra d
  | .lhau rt ra d => [.reg rt, .mem d.toNat ra]
  | .stw rs ra d | .stwu rs ra d | .stb rs ra d | .stbu rs ra d | .sth rs ra d | .sthu rs ra d => [.reg rs, .mem d.toNat ra]
  | .mcrf bf bfa => [.imm bf.toNat, .imm bfa.toNat]
  | .bclr bo bi bh | .bclrl bo bi bh | .bcctr bo bi bh | .bcctrl bo bi bh => [.imm bo.toNat, .imm bi.toNat, .imm bh.toNat]
  | .crnor bt ba bb | .crandc bt ba bb | .crxor bt ba bb | .crnand bt ba bb | .crand bt ba bb | .creqv bt ba bb
  | .crorc bt ba bb | .cror bt ba bb => [.imm bt.toNat, .imm ba.toNat, .imm bb.toNat]
  | .rldicl rs ra sh mb _ | .rldic rs ra sh mb _ | .rldimi rs ra sh mb _ => [.reg ra, .reg rs, .imm sh.toNat, .imm mb.toNat]
  | .rldicr rs ra sh me _ => [.reg ra, .reg rs, .imm sh.toNat, .imm me.toNat]
  | .rldcl rs ra rb mb _ => [.reg ra, .reg rs, .reg rb, .imm mb.toNat]
  | .rldcr rs ra rb me _ => [.reg ra, .reg rs, .reg rb, .imm me.toNat]
  | .cmp bf l ra rb | .cmpl bf l ra rb => [.imm bf.toNat, .imm l.toNat, .reg ra, .reg rb]
  | .tw toBits ra rb | .td toBits ra rb => [.imm toBits.toNat, .reg ra, .reg rb]
  | .subfc rt ra rb _ _ | .mulhdu rt ra rb _ | .addc rt ra rb _ _ | .mulhwu rt ra rb _ | .lwarx rt ra rb
  | .ldx rt ra rb | .lwzx rt ra rb | .subf rt ra rb _ _ | .ldux rt ra rb | .lwzux rt ra rb | .mulhd rt ra rb _
  | .mulhw rt ra rb _ | .ldarx rt ra rb | .lbzx rt ra rb | .lbzux rt ra rb | .subfe rt ra rb _ _
  | .adde rt ra rb _ _ | .mulld rt ra rb _ _ | .mullw rt ra rb _ _ | .add rt ra rb _ _ | .lhzx rt ra rb
  | .lhzux rt ra rb | .lwax rt ra rb | .lhax rt ra rb | .lwaux rt ra rb | .lhaux rt ra rb | .divdu rt ra rb _ _
  | .divwu rt ra rb _ _ | .divd rt ra rb _ _ | .divw rt ra rb _ _ | .lwbrx rt ra rb | .lhbrx rt ra rb => [.reg rt, .reg ra, .reg rb]
  | .mfcr rt | .mfmsr rt => [.reg rt]
  | .mfocrf rt fxm => [.reg rt, .imm fxm.toNat]
  | .slw rs ra rb _ | .sld rs ra rb _ | .and rs ra rb _ | .andc rs ra rb _ | .nor rs ra rb _ | .eqv rs ra rb _
  | .xor rs ra rb _ | .orc rs ra rb _ | .or rs ra rb _ | .nand rs ra rb _ | .srw rs ra rb _ | .srd rs ra rb _
  | .sraw rs ra rb _ | .srad rs ra rb _ => [.reg ra, .reg rs, .reg rb]
  | .cntlzw rs ra _ | .cntlzd rs ra _ | .mr rs ra _ | .extsh rs ra _ | .extsb rs ra _ | .extsw rs ra _ => [.reg ra, .reg rs]
  | .dcbst ra rb | .dcbf ra rb | .dcbtst ra rb | .dcbt ra rb | .icbi ra rb | .dcbz ra rb => [.reg ra, .reg rb]
  | .neg rt ra _ _ | .subfze rt ra _ _ | .addze rt ra _ _ | .subfme rt ra _ _ | .addme rt ra _ _ => [.reg rt, .reg ra]
  | .mtcrf rs fxm | .mtocrf rs fxm => [.imm fxm.toNat, .reg rs]
  | .mtmsr rs | .mtmsrd rs => [.reg rs]
  | .stdx rs ra rb | .stwcx rs ra rb | .stwx rs ra rb | .stdux rs ra rb | .stwux rs ra rb | .stdcx rs ra rb
  | .stbx rs ra rb | .stbux rs ra rb | .sthx rs ra rb | .sthux rs ra rb | .stwbrx rs ra rb | .sthbrx rs ra rb => [.reg rs, .reg ra, .reg rb]
  | .tlbiel rb | .tlbie rb | .slbie rb => [.reg rb]
  | .mfspr rt spr => [.reg rt, .imm spr.toNat]
  | .mftb rt tbr => [.reg rt, .imm tbr.toNat]
  | .slbmte rs rb => [.reg rs, .reg rb]
  | .sradi rs ra sh _ => [.reg ra, .reg rs, .imm sh.toNat]
  | .mtspr rs spr => [.imm spr.toNat, .reg rs]
  | .sync l => [.imm l.toNat]
  | .srawi rs ra sh _ => [.reg ra, .reg rs, .imm sh.toNat]
  | .slbmfev rt rb | .slbmfee rt rb => [.reg rt, .reg rb]
  | .ld rt ra ds | .ldu rt ra ds | .lwa rt ra ds => [.reg rt, .mem (ds ++ 0#2).toNat ra]
  | .std rs ra ds | .stdu rs ra ds => [.reg rs, .mem (ds ++ 0#2).toNat ra]
  | .reserved _ | .passthrough _ => []

/-- The text rendering of a decoded instruction: mnemonic, then operands; a passthrough word is the one token
`undefined` (R167). -/
def textTokens (i : Instr) (addr : Word) : List Token :=
  match i with
  | .passthrough _ => [.mnemonic "undefined"]
  | _ => .mnemonic (fullMnemonic i) :: renderOperands true (textOperands addr i)

/-- How the host writes a token: `rN`, `ctr`, `lr`, and "0x" with lower-case hexadecimal digits without leading zeros
(R160, R164). -/
def Token.show : Token → String
  | .mnemonic t => t
  | .register n => if n = 32 then "ctr" else if n = 33 then "lr" else "r" ++ String.ofList (Nat.toDigits 10 n)
  | .immediate v => "0x" ++ String.ofList (Nat.toDigits 16 v)
  | .punctuation t => t

/-- The displayed text of a token list. -/
def showTokens (ts : List Token) : String := ts.foldl (fun acc t => acc ++ t.show) ""

/-- The decoder block's outputs on success (10_state.md R33); `immOperands` holds the operands of R118 beside the one
`imm` reports (30_encoding.md R138; assumption log 16). -/
structure DecoderOut where
  insn : Instr
  insnClass : InsnClass
  form : Option Form
  fields : List (FieldName × Nat)
  imm : Option Word
  immOperands : List Word
  mask : Option Word
  branch : Option BranchInfo
  edges : List (EdgeKind × Word)
  flagreq : BitVec 2
  intrinsic : Option Nat
  text : List Token
deriving DecidableEq, Repr

/-- The instruction length output, always 4 (00_scope.md R10). -/
def instructionLength : Nat := 4

/-- The decoder block (10_state.md R31 to R33; 70 R712): `none` is `ok = 0`, with every other output absent. Both
renderings come from the one dispatch walk (30_encoding.md R136). -/
def decoderBlock (w : InsnWord) (addr : Word) : Option DecoderOut :=
  match decode w with
  | .failure _ => none
  | .success i =>
    some
      { insn := i, insnClass := insnClass i, form := form i, fields := rawFields i w, imm := immediate i,
        immOperands := immediateOperands i, mask := maskOutput i, branch := branchInfo addr i, edges := edges w addr, flagreq := flagRequest i,
        intrinsic := (intrinsicRecord i).map fun r => r.op.ident, text := textTokens i addr }

end Sys2Proof.Machine
end

