-- ==== Sys2Proof/Safety.lean ====
section
/-! DEFINITION. What a claim about the machine is said in: that an instruction completes, what a step leaves unchanged,
the invariant of the machine, and which registers an instruction reads (10_state.md R35 to R53; 42_load_store.md R280 to
R285; 60_exceptions.md R602, R606). -/

namespace Sys2Proof.Safety

open Sys2Proof.Machine Sys2Proof.Config

/-- `exec` answers a next state, and that state has the property. -/
def Completes (i : Instr) (s : State) (P : State → Prop) : Prop := ∃ t, exec i s = .next t ∧ P t

/-! ### The invariant -/

/-- What holds of the machine between steps: memory is in its canonical form, the written-bytes set is strictly rising
and inside the 64-bit space (20_memory.md R87), and PC is a multiple of 4 (10_state.md R37). -/
structure Inv (s : State) : Prop where
  memCanonical : s.mem.wf = true
  writtenRising : s.written.Pairwise (· < ·)
  writtenInSpace : ∀ a ∈ s.written, a < 2 ^ 64
  pcAligned : s.pc.toNat % 4 = 0

/-! ### What a step leaves unchanged -/

/-- Every general register outside `rs` reads as before. -/
def GprKept (rs : List Reg) (s t : State) : Prop := ∀ r, r ∉ rs → t.readGpr r = s.readGpr r

/-- XER.SO, XER.OV and XER.CA are unchanged. -/
def XerKept (s t : State) : Prop := t.so = s.so ∧ t.ov = s.ov ∧ t.ca = s.ca

/-- LR and CTR are unchanged. -/
def LinkKept (s t : State) : Prop := t.lr = s.lr ∧ t.ctr = s.ctr

/-- Every byte of memory reads as before, and no byte joins the written-bytes set. -/
def MemKept (s t : State) : Prop := (∀ a, t.mem.read a = s.mem.read a) ∧ t.written = s.written

/-- The launch's exit address and admission predicate and the parameters are unchanged (70 R701, 00_scope.md R9). -/
def LaunchKept (s t : State) : Prop := t.exit = s.exit ∧ t.admitted = s.admitted ∧ t.params = s.params

/-- CR fields other than `f` are unchanged. -/
def OtherFieldsKept (f : BitVec 3) (s t : State) : Prop := ∀ g, g ≠ f → crField t.cr g = crField s.cr g

/-- The frame of an instruction that is no branch and no store and whose only destinations, beside CR and XER, are the
general registers `rs`: it ends with PC at CIA + 4 (10_state.md R37). -/
structure Frame (rs : List Reg) (s t : State) : Prop where
  gprs : GprKept rs s t
  link : LinkKept s t
  mem : MemKept s t
  launch : LaunchKept s t
  pc : t.pc = s.pc + 4#64

/-- The frame of an instruction that writes the general registers `rs` and PC and nothing else. -/
structure OnlyGprs (rs : List Reg) (s t : State) : Prop extends Frame rs s t where
  cr : t.cr = s.cr
  xer : XerKept s t

/-! ### The condition register -/

/-- CR field `f` holds LT, GT and EQ of `a` against `b`, with its SO bit ORed with `so` (10_state.md R39, R45, R46,
R49), and the other fields are unchanged. -/
def Compared (f : BitVec 3) (a b : Int) (so : Bool) (s t : State) : Prop :=
  (crField t.cr f).getLsbD 3 = decide (a < b) ∧ (crField t.cr f).getLsbD 2 = decide (b < a)
    ∧ (crField t.cr f).getLsbD 1 = decide (a = b)
    ∧ (crField t.cr f).getLsbD 0 = ((crField s.cr f).getLsbD 0 || so) ∧ OtherFieldsKept f s t

/-- The record form: CR0 compares the result with zero when `rc`, and CR is unchanged when not (10_state.md R46). -/
def RecordedIf (rc : Bool) (res : Word) (s t : State) : Prop :=
  if rc then Compared 0#3 res.toInt 0 s.so s t else t.cr = s.cr

/-- CR0 holds the three bits `c`, its SO bit is ORed with `so`, and the other fields are unchanged. -/
def FieldZeroDrawn (c : BitVec 3) (so : Bool) (s t : State) : Prop :=
  crField t.cr 0#3 = c ++ BitVec.ofBool ((crField s.cr 0#3).getLsbD 0 || so) ∧ OtherFieldsKept 0#3 s t

/-! ### Data accesses -/

/-- An access the machine makes: aligned, or the parameter allows misaligned data; and admitted (20_memory.md R71,
R75). -/
def Accessible (s : State) (kind : AccessKind) (ea : Word) (n : Nat) : Prop :=
  (ea.toNat % n = 0 ∨ s.params.misalignedData = .allow) ∧ s.admits ea n kind = true

/-- Address `a` is one of the n bytes from `ea` upwards, mod 2^64. -/
def InBytes (ea : Word) (n a : Nat) : Prop := ∃ k, k < n ∧ a = (ea + BitVec.ofNat 64 k).toNat

/-- Memory holds the 8n-bit value `v` big-endian at `ea` (20_memory.md R73). -/
def BytesAt (m : Memory) (ea : Word) (n : Nat) (v : BitVec (8 * n)) : Prop :=
  ∀ k, k < n → m.read (ea + BitVec.ofNat 64 k).toNat = v.extractLsb' (8 * (n - k) - 8) 8

/-- A store of `v` to the n bytes at `ea`, with the general registers `rs` written too: the bytes hold `v`, every other
byte is unchanged, the written-bytes set gains the n addresses, and nothing else changes but PC. -/
structure Stored (ea : Word) (n : Nat) (v : BitVec (8 * n)) (rs : List Reg) (s t : State) : Prop where
  bytes : BytesAt t.mem ea n v
  others : ∀ a, ¬ InBytes ea n a → t.mem.read a = s.mem.read a
  marks : ∀ a, a ∈ t.written ↔ a ∈ s.written ∨ InBytes ea n a
  gprs : GprKept rs s t
  cr : t.cr = s.cr
  xer : XerKept s t
  link : LinkKept s t
  launch : LaunchKept s t
  pc : t.pc = s.pc + 4#64

/-! ### What a store puts in memory and what a load makes of it -/

/-- The n low bytes of a register's value in the order of rising addresses, big-endian (20_memory.md R73). -/
def storeBytes (n : Nat) (v : Word) : List Byte := (List.range n).map fun k => v.extractLsb' (8 * (n - 1 - k)) 8

/-- The address and the bytes of a store of n bytes of GPR[RS] at `ea`. -/
def storeOf (n : Nat) (ea : Option Word) (rs : Reg) (s : State) : Option (Word × List Byte) :=
  ea.bind fun a => (s.readGpr rs).map fun v => (a, storeBytes n v)

/-- The address and the bytes of a byte-reversed store (R74). -/
def storeReversedOf (n : Nat) (ea : Option Word) (rs : Reg) (s : State) : Option (Word × List Byte) :=
  (storeOf n ea rs s).map fun x => (x.1, x.2.reverse)

/-- The address a store writes to and the bytes it puts there, lowest address first (42_load_store.md R280, R282, R320
to R337). -/
def storeAccess (s : State) : Instr → Option (Word × List Byte)
  | .stb rs ra d => storeOf 1 (eaD ra d s) rs s
  | .stbu rs ra d => storeOf 1 (eaDUpdate ra d s) rs s
  | .stbx rs ra rb => storeOf 1 (eaX ra rb s) rs s
  | .stbux rs ra rb => storeOf 1 (eaXUpdate ra rb s) rs s
  | .sth rs ra d => storeOf 2 (eaD ra d s) rs s
  | .sthu rs ra d => storeOf 2 (eaDUpdate ra d s) rs s
  | .sthx rs ra rb => storeOf 2 (eaX ra rb s) rs s
  | .sthux rs ra rb => storeOf 2 (eaXUpdate ra rb s) rs s
  | .stw rs ra d => storeOf 4 (eaD ra d s) rs s
  | .stwu rs ra d => storeOf 4 (eaDUpdate ra d s) rs s
  | .stwx rs ra rb => storeOf 4 (eaX ra rb s) rs s
  | .stwux rs ra rb => storeOf 4 (eaXUpdate ra rb s) rs s
  | .std rs ra ds => storeOf 8 (eaDS ra ds s) rs s
  | .stdu rs ra ds => storeOf 8 (eaDSUpdate ra ds s) rs s
  | .stdx rs ra rb => storeOf 8 (eaX ra rb s) rs s
  | .stdux rs ra rb => storeOf 8 (eaXUpdate ra rb s) rs s
  | .sthbrx rs ra rb => storeReversedOf 2 (eaX ra rb s) rs s
  | .stwbrx rs ra rb => storeReversedOf 4 (eaX ra rb s) rs s
  | _ => none

/-- What a load reads and where it puts it: the address, the number of bytes, RT, and how it makes 64 bits of the bytes,
lowest address first. -/
structure LoadAccess where
  ea : Word
  size : Nat
  rt : Reg
  value : List Byte → Word

/-- A load that zero-extends n bytes (R283). -/
def loadZero (n : Nat) (ea : Option Word) (rt : Reg) : Option LoadAccess :=
  ea.map fun a => ⟨a, n, rt, fun bs => BitVec.ofNat 64 (beValue bs)⟩

/-- A load that sign-extends n bytes (R283). -/
def loadSigned (n : Nat) (ea : Option Word) (rt : Reg) : Option LoadAccess :=
  ea.map fun a => ⟨a, n, rt, fun bs => (BitVec.ofNat (8 * n) (beValue bs)).signExtend 64⟩

/-- A load that reverses n bytes and zero-extends them (R74). -/
def loadReversed (n : Nat) (ea : Option Word) (rt : Reg) : Option LoadAccess :=
  ea.map fun a => ⟨a, n, rt, fun bs => BitVec.ofNat 64 (beValue bs.reverse)⟩

/-- The access of each load (42_load_store.md R280, R281, R290 to R314). -/
def loadAccess (s : State) : Instr → Option LoadAccess
  | .lbz rt ra d => loadZero 1 (eaD ra d s) rt
  | .lbzu rt ra d => loadZero 1 (eaDUpdate ra d s) rt
  | .lbzx rt ra rb => loadZero 1 (eaX ra rb s) rt
  | .lbzux rt ra rb => loadZero 1 (eaXUpdate ra rb s) rt
  | .lhz rt ra d => loadZero 2 (eaD ra d s) rt
  | .lhzu rt ra d => loadZero 2 (eaDUpdate ra d s) rt
  | .lhzx rt ra rb => loadZero 2 (eaX ra rb s) rt
  | .lhzux rt ra rb => loadZero 2 (eaXUpdate ra rb s) rt
  | .lha rt ra d => loadSigned 2 (eaD ra d s) rt
  | .lhau rt ra d => loadSigned 2 (eaDUpdate ra d s) rt
  | .lhax rt ra rb => loadSigned 2 (eaX ra rb s) rt
  | .lhaux rt ra rb => loadSigned 2 (eaXUpdate ra rb s) rt
  | .lwz rt ra d => loadZero 4 (eaD ra d s) rt
  | .lwzu rt ra d => loadZero 4 (eaDUpdate ra d s) rt
  | .lwzx rt ra rb => loadZero 4 (eaX ra rb s) rt
  | .lwzux rt ra rb => loadZero 4 (eaXUpdate ra rb s) rt
  | .lwa rt ra ds => loadSigned 4 (eaDS ra ds s) rt
  | .lwax rt ra rb => loadSigned 4 (eaX ra rb s) rt
  | .lwaux rt ra rb => loadSigned 4 (eaXUpdate ra rb s) rt
  | .ld rt ra ds => loadZero 8 (eaDS ra ds s) rt
  | .ldu rt ra ds => loadZero 8 (eaDSUpdate ra ds s) rt
  | .ldx rt ra rb => loadZero 8 (eaX ra rb s) rt
  | .ldux rt ra rb => loadZero 8 (eaXUpdate ra rb s) rt
  | .lhbrx rt ra rb => loadReversed 2 (eaX ra rb s) rt
  | .lwbrx rt ra rb => loadReversed 4 (eaX ra rb s) rt
  | _ => none

/-- The byte at address `x` after the bytes `bs` were put at `ea` upwards, mod 2^64: one of them, or the byte of `m`. -/
def byteAfter (m : Memory) (ea : Word) (bs : List Byte) (x : Word) : Byte := bs[(x - ea).toNat]?.getD (m.read x.toNat)

/-! ### Runs -/

/-- Exactly n steps, each answering a next state, lead from `s` to `t` (70_reset_and_hazards.md R702). -/
def Steps : Nat → State → State → Prop
  | 0, s, t => s = t
  | n + 1, s, t => ∃ u, step s = .next u ∧ Steps n u t

/-! ### Branches -/

/-- A conditional branch's option bits say "always" (40_branch.md R204). -/
def Always (bo : BitVec 5) : Prop := bo &&& 0b10100#5 = 0b10100#5

/-- The condition of a conditional branch that is not "always" (40_branch.md R206 to R208): `ctrNew` is CTR after the
decrement. BO0 is bit 4 of the field, BO1 bit 3, BO2 bit 2, BO3 bit 1. -/
def Taken (bo bi : BitVec 5) (ctrNew : Word) (cr : BitVec 32) : Prop :=
  (bo.getLsbD 2 = true ∨ (bo.getLsbD 1 = false ∧ ctrNew ≠ 0#64) ∨ (bo.getLsbD 1 = true ∧ ctrNew = 0#64))
    ∧ (bo.getLsbD 4 = true ∨ cr.getLsbD (31 - bi.toNat) = bo.getLsbD 3)

/-! ### Kinds of instruction -/

/-- The branches of 40_branch.md. -/
def isBranch : Instr → Bool
  | .b _ | .ba _ | .bl _ | .bla _ | .bc _ _ _ | .bca _ _ _ | .bcl _ _ _ | .bcla _ _ _ | .bclr _ _ _ | .bclrl _ _ _
  | .bcctr _ _ _ | .bcctrl _ _ _ => true
  | _ => false

/-- The branches that link (LK = 1). -/
def isLinking : Instr → Bool
  | .bl _ | .bla _ | .bcl _ _ _ | .bcla _ _ _ | .bclrl _ _ _ | .bcctrl _ _ _ => true
  | _ => false

/-- The branches that may decrement CTR (40_branch.md R205, R214). -/
def mayDecrement : Instr → Bool
  | .bc _ _ _ | .bca _ _ _ | .bcl _ _ _ | .bcla _ _ _ | .bclr _ _ _ | .bclrl _ _ _ => true
  | _ => false

/-- The stores of 42_load_store.md. -/
def isStore : Instr → Bool
  | .stb _ _ _ | .stbu _ _ _ | .stbx _ _ _ | .stbux _ _ _ | .sth _ _ _ | .sthu _ _ _ | .sthx _ _ _ | .sthux _ _ _
  | .stw _ _ _ | .stwu _ _ _ | .stwx _ _ _ | .stwux _ _ _ | .std _ _ _ | .stdu _ _ _ | .stdx _ _ _ | .stdux _ _ _
  | .sthbrx _ _ _ | .stwbrx _ _ _ => true
  | _ => false

/-- The loads of 42_load_store.md. -/
def isLoad : Instr → Bool
  | .lbz _ _ _ | .lbzu _ _ _ | .lbzx _ _ _ | .lbzux _ _ _ | .lhz _ _ _ | .lhzu _ _ _ | .lhzx _ _ _ | .lhzux _ _ _
  | .lha _ _ _ | .lhau _ _ _ | .lhax _ _ _ | .lhaux _ _ _ | .lwz _ _ _ | .lwzu _ _ _ | .lwzx _ _ _ | .lwzux _ _ _
  | .lwa _ _ _ | .lwax _ _ _ | .lwaux _ _ _ | .ld _ _ _ | .ldu _ _ _ | .ldx _ _ _ | .ldux _ _ _ | .lhbrx _ _ _
  | .lwbrx _ _ _ => true
  | _ => false

/-- The instructions that write CR explicitly: the CR-logical instructions, mcrf, mtcrf and mtocrf (41_cr.md R264). -/
def writesCrExplicitly : Instr → Bool
  | .crand _ _ _ | .crnand _ _ _ | .cror _ _ _ | .crxor _ _ _ | .crnor _ _ _ | .creqv _ _ _ | .crandc _ _ _
  | .crorc _ _ _ | .mcrf _ _ | .mtcrf _ _ | .mtocrf _ _ => true
  | _ => false

/-- The trap instructions (46_system.md R531). -/
def isTrap : Instr → Bool
  | .tw _ _ _ | .twi _ _ _ | .td _ _ _ | .tdi _ _ _ => true
  | _ => false

/-- The instructions that read LR (10_state.md R41; 40_branch.md R223, R224; 46_system.md R502). -/
def readsLr : Instr → Bool
  | .bclr _ _ _ | .bclrl _ _ _ => true
  | .mfspr _ spr => spr == 8#10
  | _ => false

/-- The instructions that read CTR (10_state.md R42; 40_branch.md R205, R225, R226; 46_system.md R502). -/
def readsCtr : Instr → Bool
  | .bc _ _ _ | .bca _ _ _ | .bcl _ _ _ | .bcla _ _ _ | .bclr _ _ _ | .bclrl _ _ _ | .bcctr _ _ _ | .bcctrl _ _ _ =>
    true
  | .mfspr _ spr => spr == 9#10
  | _ => false

/-- `RA` as an operand of a rule that writes `(RA|0)`: register 0 is not read. -/
def baseSource (ra : Reg) : List Reg := if ra = 0#5 then [] else [ra]

/-- The general registers an instruction's rule reads, under the run's parameters (10_state.md R53; the per-instruction
rules of 40_branch.md to 46_system.md). A refused instruction reads none (60_exceptions.md R602). -/
def gprSources (p : Params) : Instr → List Reg
  | .addi _ ra _ | .addis _ ra _ => baseSource ra
  | .addic _ ra _ | .addicRc _ ra _ | .subfic _ ra _ | .mulli _ ra _ | .cmpi _ _ ra _ | .cmpli _ _ ra _
  | .twi _ ra _ | .tdi _ ra _ | .addme _ ra _ _ | .addze _ ra _ _ | .subfme _ ra _ _ | .subfze _ ra _ _
  | .neg _ ra _ _ => [ra]
  | .add _ ra rb _ _ | .addc _ ra rb _ _ | .adde _ ra rb _ _ | .subf _ ra rb _ _ | .subfc _ ra rb _ _
  | .subfe _ ra rb _ _ | .mulld _ ra rb _ _ | .mullw _ ra rb _ _ | .divd _ ra rb _ _ | .divdu _ ra rb _ _
  | .divw _ ra rb _ _ | .divwu _ ra rb _ _ | .mulhd _ ra rb _ | .mulhdu _ ra rb _ | .mulhw _ ra rb _
  | .mulhwu _ ra rb _ | .cmp _ _ ra rb | .cmpl _ _ ra rb | .tw _ ra rb | .td _ ra rb => [ra, rb]
  | .andiRc rs _ _ | .andisRc rs _ _ | .ori rs _ _ | .oris rs _ _ | .xori rs _ _ | .xoris rs _ _ | .mr rs _ _
  | .extsb rs _ _ | .extsh rs _ _ | .extsw rs _ _ | .cntlzw rs _ _ | .cntlzd rs _ _ | .rlwinm rs _ _ _ _ _
  | .rldicl rs _ _ _ _ | .rldicr rs _ _ _ _ | .rldic rs _ _ _ _ | .srawi rs _ _ _ | .sradi rs _ _ _
  | .mtcrf rs _ | .mtocrf rs _ => [rs]
  | .and rs _ rb _ | .andc rs _ rb _ | .or rs _ rb _ | .orc rs _ rb _ | .xor rs _ rb _ | .nand rs _ rb _
  | .nor rs _ rb _ | .eqv rs _ rb _ | .slw rs _ rb _ | .srw rs _ rb _ | .sraw rs _ rb _ | .sld rs _ rb _
  | .srd rs _ rb _ | .srad rs _ rb _ | .rlwnm rs _ rb _ _ _ | .rldcl rs _ rb _ _ => [rs, rb]
  | .rlwimi rs ra _ _ _ _ | .rldimi rs ra _ _ _ => [rs, ra]
  | .rldcr rs _ rb _ _ => if p.rldcrShift = .register then [rs, rb] else [rs]
  | .mtspr rs spr => if spr = 1#10 ∨ spr = 8#10 ∨ spr = 9#10 then [rs] else []
  | .lbz _ ra _ | .lhz _ ra _ | .lha _ ra _ | .lwz _ ra _ | .lwa _ ra _ | .ld _ ra _ => baseSource ra
  | .lbzx _ ra rb | .lhzx _ ra rb | .lhax _ ra rb | .lwzx _ ra rb | .lwax _ ra rb | .ldx _ ra rb | .lhbrx _ ra rb
  | .lwbrx _ ra rb => rb :: baseSource ra
  | .lbzu _ ra _ | .lhzu _ ra _ | .lhau _ ra _ | .lwzu _ ra _ | .ldu _ ra _ => [ra]
  | .lbzux _ ra rb | .lhzux _ ra rb | .lhaux _ ra rb | .lwzux _ ra rb | .lwaux _ ra rb | .ldux _ ra rb => [ra, rb]
  | .stb rs ra _ | .sth rs ra _ | .stw rs ra _ | .std rs ra _ => rs :: baseSource ra
  | .stbx rs ra rb | .sthx rs ra rb | .stwx rs ra rb | .stdx rs ra rb | .sthbrx rs ra rb | .stwbrx rs ra rb =>
    rs :: rb :: baseSource ra
  | .stbu rs ra _ | .sthu rs ra _ | .stwu rs ra _ | .stdu rs ra _ => [rs, ra]
  | .stbux rs ra rb | .sthux rs ra rb | .stwux rs ra rb | .stdux rs ra rb => [rs, ra, rb]
  | _ => []

end Sys2Proof.Safety
end

