-- ==== Sys2Proof/Certificates/Slice0/Obligations.lean ====
section
/-! DEFINITION. The statements for the provers. The shapes that several instructions share stand first, in namespace
`Sys2Proof.Claims`; each obligation names the instructions it holds for. -/

namespace Sys2Proof.Claims

open Sys2Proof.Machine Sys2Proof.Config Sys2Proof.Safety

/-! ### Decoding -/

/-- The RA and RT fields of a word are an invalid base and destination of an update-form load (30_encoding.md R130). -/
def BadLoadUpdate (w : InsnWord) : Prop := w.extractLsb' 16 5 = 0#5 ∨ w.extractLsb' 16 5 = w.extractLsb' 21 5

/-- The RA field of a word is an invalid base of an update-form store (R130). -/
def BadStoreUpdate (w : InsnWord) : Prop := w.extractLsb' 16 5 = 0#5

/-- A word with a reserved primary opcode (R122). -/
def ReservedPrimary (w : InsnWord) : Prop :=
  (w.extractLsb' 26 6).toNat ∈ [0, 1, 5, 6, 9, 22]

/-- A word with an explicitly reserved secondary key (R124, R127, R128). -/
def ReservedSecondary (w : InsnWord) : Prop :=
  (w.extractLsb' 26 6 = 30#6 ∧ 10 ≤ (w.extractLsb' 1 4).toNat)
    ∨ (w.extractLsb' 26 6 = 58#6 ∧ w.extractLsb' 0 2 = 3#2)
    ∨ (w.extractLsb' 26 6 = 62#6 ∧ w.extractLsb' 0 2 = 3#2)

/-- A word of an update form whose base or destination is invalid (R130): lwzu, lbzu, lhzu, lhau, ldu, and the indexed
ldux, lwzux, lbzux, lhzux, lwaux, lhaux; stwu, stbu, sthu, stdu, and stdux, stwux, stbux, sthux. -/
def InvalidUpdate (w : InsnWord) : Prop :=
  ((w.extractLsb' 26 6).toNat ∈ [33, 35, 41, 43] ∧ BadLoadUpdate w)
    ∨ (w.extractLsb' 26 6 = 58#6 ∧ w.extractLsb' 0 2 = 1#2 ∧ BadLoadUpdate w)
    ∨ (w.extractLsb' 26 6 = 31#6 ∧ (w.extractLsb' 1 10).toNat ∈ [53, 55, 119, 311, 373, 375] ∧ BadLoadUpdate w)
    ∨ ((w.extractLsb' 26 6).toNat ∈ [37, 39, 45] ∧ BadStoreUpdate w)
    ∨ (w.extractLsb' 26 6 = 62#6 ∧ w.extractLsb' 0 2 = 1#2 ∧ BadStoreUpdate w)
    ∨ (w.extractLsb' 26 6 = 31#6 ∧ (w.extractLsb' 1 10).toNat ∈ [181, 183, 247, 439] ∧ BadStoreUpdate w)

/-! ### Registers and results -/

/-- XER.CA as an input bit of a sum. -/
def caWord (s : State) : Word := if s.ca then 1#64 else 0#64

/-- The CA and overflow requests of an instruction leave XER alone: it makes no overflow request, or the parameter is
`reference` (10_state.md R47, R48). -/
def NoOverflowWrite (oe : Bool) (s : State) : Prop := oe = false ∨ s.params.caOvMode = .reference

/-- Completion of an instruction that writes `res` to GPR `rd`, records it when `rc`, and writes nothing else. -/
def WritesResult (i : Instr) (rd : Reg) (rc : Bool) (res : Word) (s : State) : Prop :=
  Completes i s fun t => t.readGpr rd = some res ∧ RecordedIf rc res s t ∧ XerKept s t ∧ Frame [rd] s t

/-- A logical instruction of one source: GPR[RA] gets `f` of GPR[RS] (44_compare_logical.md R426). -/
def Logical1 (mk : Reg → Reg → Bool → Instr) (f : Word → Word) : Prop :=
  ∀ rs ra rc s a, s.readGpr rs = some a → WritesResult (mk rs ra rc) ra rc (f a) s

/-- A logical instruction of two sources: GPR[RA] gets `f` of GPR[RS] and GPR[RB]. -/
def Logical2 (mk : Reg → Reg → Reg → Bool → Instr) (f : Word → Word → Word) : Prop :=
  ∀ rs ra rb rc s a b, s.readGpr rs = some a → s.readGpr rb = some b →
    WritesResult (mk rs ra rb rc) ra rc (f a b) s

/-- A logical immediate: GPR[RA] gets `f` of GPR[RS] and the immediate; it records when `rc`. -/
def LogicalImmediate (mk : Reg → Reg → BitVec 16 → Instr) (rc : Bool) (f : Word → BitVec 16 → Word) : Prop :=
  ∀ rs ra ui s a, s.readGpr rs = some a → WritesResult (mk rs ra ui) ra rc (f a ui) s

/-- An XO-form instruction of two sources that is not CA-producing (43_arith.md R340). -/
def Arith2 (mk : Reg → Reg → Reg → Bool → Bool → Instr) (f : Word → Word → Word) : Prop :=
  ∀ rt ra rb oe rc s a b, s.readGpr ra = some a → s.readGpr rb = some b → NoOverflowWrite oe s →
    WritesResult (mk rt ra rb oe rc) rt rc (f a b) s

/-- A multiply-high instruction of the doubleword: Rc and no OE. -/
def MulHigh (mk : Reg → Reg → Reg → Bool → Instr) (f : Word → Word → Word) : Prop :=
  ∀ rt ra rb rc s a b, s.readGpr ra = some a → s.readGpr rb = some b → WritesResult (mk rt ra rb rc) rt rc (f a b) s

/-- A multiply-high instruction of the word: the high half of RT, and with Rc = 1 the LT, GT and EQ bits of CR0, are
fresh draws (R342). -/
def MulHighWord (mk : Reg → Reg → Reg → Bool → Instr) (f : Word → Word → BitVec 32) : Prop :=
  ∀ rt ra rb rc s a b, s.readGpr ra = some a → s.readGpr rb = some b →
    Completes (mk rt ra rb rc) s fun t =>
      t.readGpr rt = some (s.draw 32 ++ f a b)
        ∧ (if rc then FieldZeroDrawn (s.drawn.draw 3) s.so s t else t.cr = s.cr) ∧ XerKept s t ∧ Frame [rt] s t

/-- Completion of an instruction of the carry family under `reference` (10_state.md R47): the result is written, XER is
unchanged, and with Rc = 1 CR0 is a draw with a sticky SO bit. -/
def CarryFamily (i : Instr) (rt : Reg) (rc : Bool) (res : Word) (s : State) : Prop :=
  s.params.caOvMode = .reference →
    Completes i s fun t =>
      t.readGpr rt = some res
        ∧ (if rc then FieldZeroDrawn (s.draw 3) (s.drawn.draw 1 == 1#1) s t else t.cr = s.cr)
        ∧ XerKept s t ∧ Frame [rt] s t

/-- A carry-family instruction of two sources and XER.CA. -/
def Carry2 (mk : Reg → Reg → Reg → Bool → Bool → Instr) (f : Word → Word → Word → Word) : Prop :=
  ∀ rt ra rb oe rc s a b, s.readGpr ra = some a → s.readGpr rb = some b →
    CarryFamily (mk rt ra rb oe rc) rt rc (f a b (caWord s)) s

/-- A carry-family instruction of one source and XER.CA. -/
def Carry1 (mk : Reg → Reg → Bool → Bool → Instr) (f : Word → Word → Word) : Prop :=
  ∀ rt ra oe rc s a, s.readGpr ra = some a → CarryFamily (mk rt ra oe rc) rt rc (f a (caWord s)) s

/-- CR0 of a record form under `architectural`, whose SO bit is ORed with XER.SO as the instruction leaves it
(PRESUMED, assumption log 14). -/
def RecordedAfter (rc : Bool) (res : Word) (s t : State) : Prop :=
  if rc then Compared 0#3 res.toInt 0 t.so s t else t.cr = s.cr

/-- Completion of a CA-producing sum x + y + c under `architectural` (43_arith.md R341): CA is the carry out of bit 63,
and with OE = 1 OV is the signed overflow and SO is ORed with it. -/
def ArchitecturalSum (i : Instr) (rt : Reg) (oe rc : Bool) (x y : Word) (c : Bool) (s : State) : Prop :=
  s.params.caOvMode = .architectural →
    Completes i s fun t =>
      t.readGpr rt = some (x + y + (if c then 1#64 else 0#64))
        ∧ RecordedAfter rc (x + y + (if c then 1#64 else 0#64)) s t
        ∧ (t.ca = true ↔ 2 ^ 64 ≤ x.toNat + y.toNat + (if c then 1 else 0))
        ∧ (oe = true → (t.ov = true ↔
            (x.toInt + y.toInt + (if c then 1 else 0) < -(2 ^ 63)
              ∨ 2 ^ 63 ≤ x.toInt + y.toInt + (if c then 1 else 0))) ∧ t.so = (s.so || t.ov))
        ∧ (oe = false → t.ov = s.ov ∧ t.so = s.so) ∧ Frame [rt] s t

/-- Completion under `architectural` of an XO-form instruction that is not CA-producing, with OE = 1: OV says whether
the exact result `e` is outside the signed n-bit range, and SO is ORed with OV. -/
def ArchitecturalOverflow (i : Instr) (rt : Reg) (rc : Bool) (n : Nat) (e : Int) (s : State) : Prop :=
  s.params.caOvMode = .architectural →
    Completes i s fun t =>
      t.readGpr rt = some (BitVec.ofInt 64 e) ∧ RecordedAfter rc (BitVec.ofInt 64 e) s t
        ∧ (t.ov = true ↔ (e < -(2 ^ (n - 1)) ∨ 2 ^ (n - 1) ≤ e))
        ∧ t.so = (s.so || t.ov) ∧ t.ca = s.ca ∧ Frame [rt] s t

/-- CR0 of a record form whose result holds draws: LT, GT and EQ are the draw `c`, and the SO bit is ORed with XER.SO as
the instruction leaves it (10_state.md R46; log 14). -/
def DrawnAfter (rc : Bool) (c : BitVec 3) (s t : State) : Prop :=
  if rc then FieldZeroDrawn c t.so s t else t.cr = s.cr

/-- A division's result and CR0 (43_arith.md R342, R375 to R378): the undefined quotient is a draw of all 64 bits, and
with Rc = 1 the draw `c` gives LT, GT and EQ; a defined one is as `defined` says. -/
def QuotientAfter (rt : Reg) (rc : Bool) (undefinedQuotient : Prop) (defined : State → Prop) (c : BitVec 3)
    (s t : State) : Prop :=
  (undefinedQuotient → t.readGpr rt = some (s.draw 64) ∧ DrawnAfter rc c s t) ∧ (¬ undefinedQuotient → defined t)

/-- A defined doubleword quotient `q`. -/
def FullQuotientAfter (rt : Reg) (rc : Bool) (q : Word) (s t : State) : Prop :=
  t.readGpr rt = some q ∧ RecordedAfter rc q s t

/-- A defined word quotient `q`: the high half of RT is a draw, and with Rc = 1 the draw `c` gives LT, GT and EQ. -/
def WordQuotientAfter (rt : Reg) (rc : Bool) (q : BitVec 32) (c : BitVec 3) (s t : State) : Prop :=
  t.readGpr rt = some (s.draw 32 ++ q) ∧ DrawnAfter rc c s t

/-- Completion under `architectural` of a division with OE = 1: OV says whether the quotient is undefined, SO is ORed
with it, and RT and CR0 are as `QuotientAfter` says. -/
def ArchitecturalDivide (i : Instr) (rt : Reg) (rc : Bool) (undefinedQuotient : Prop) (defined : State → Prop)
    (s : State) : Prop :=
  s.params.caOvMode = .architectural →
    Completes i s fun t =>
      QuotientAfter rt rc undefinedQuotient defined (s.drawn.draw 3) s t
        ∧ (t.ov = true ↔ undefinedQuotient) ∧ t.so = (s.so || t.ov) ∧ t.ca = s.ca ∧ Frame [rt] s t

/-- The state whose draws come next after one draw, when it is taken. -/
def afterDraw (taken : Bool) (s : State) : State := if taken then s.drawn else s

/-- The state whose draws come next after the overflow request of OE under `havoc`, which takes two. -/
def afterOverflowDraws (oe : Bool) (s : State) : State := if oe then s.drawn.drawn else s

/-- The overflow request under `havoc`: OE = 1 draws OV and ORs another draw into SO (log 13); `d` supplies the
draws. -/
def HavocOverflow (oe : Bool) (d s t : State) : Prop :=
  if oe then t.ov = (d.draw 1 == 1#1) ∧ t.so = (s.so || (d.drawn.draw 1 == 1#1)) else t.ov = s.ov ∧ t.so = s.so

/-- Completion under `havoc` (10_state.md R47; 43_arith.md R341) of an instruction with result `res`: a carry request
draws CA, and the overflow request is as `HavocOverflow` says (assumption log 13). With Rc = 1 the carry family draws
CR0, and every other instruction compares the result with zero (log 13), its SO bit ORed with SO as left (log 14). -/
def HavocWrites (i : Instr) (rd : Reg) (carry oe rc family : Bool) (res : Word) (s : State) : Prop :=
  s.params.caOvMode = .havoc →
    Completes i s fun t =>
      t.readGpr rd = some res ∧ t.ca = (if carry then s.draw 1 == 1#1 else s.ca)
        ∧ HavocOverflow oe (afterDraw carry s) s t
        ∧ (if rc && family then
            FieldZeroDrawn ((afterOverflowDraws oe (afterDraw carry s)).draw 3)
              ((afterOverflowDraws oe (afterDraw carry s)).drawn.draw 1 == 1#1) s t
          else RecordedAfter rc res s t)
        ∧ Frame [rd] s t

/-- Completion under `havoc` of a division: RT and CR0 as `QuotientAfter` says, CA unchanged, and the overflow request as
`HavocOverflow` says. `drawnResult` says that the result itself takes a draw, before the overflow request's. -/
def HavocDivides (i : Instr) (rt : Reg) (oe rc : Bool) (undefinedQuotient drawnResult : Prop) (defined : State → Prop)
    (s : State) : Prop :=
  s.params.caOvMode = .havoc →
    Completes i s fun t =>
      QuotientAfter rt rc undefinedQuotient defined ((afterOverflowDraws oe s.drawn).draw 3) s t
        ∧ (drawnResult → HavocOverflow oe s.drawn s t) ∧ (¬ drawnResult → HavocOverflow oe s s t) ∧ t.ca = s.ca
        ∧ Frame [rt] s t

/-- A signed doubleword division has no quotient (R375). -/
def NoQuotient (a b : Word) : Prop := b = 0#64 ∨ (a = 0x8000000000000000#64 ∧ b = 0xFFFFFFFFFFFFFFFF#64)

/-- A division: a draw of all 64 bits where the quotient is undefined, and no fault (R342, R375 to R378). With Rc = 1
a drawn result draws CR0's LT, GT and EQ. -/
def Divide (mk : Reg → Reg → Reg → Bool → Bool → Instr) (undefinedAt : Word → Word → Prop)
    (holds : Word → Word → State → State → Reg → Bool → Prop) : Prop :=
  ∀ rt ra rb oe rc s a b, s.readGpr ra = some a → s.readGpr rb = some b → NoOverflowWrite oe s →
    Completes (mk rt ra rb oe rc) s fun t =>
      (undefinedAt a b → t.readGpr rt = some (s.draw 64)
          ∧ (if rc then FieldZeroDrawn (s.drawn.draw 3) s.so s t else t.cr = s.cr))
        ∧ (¬ undefinedAt a b → holds a b s t rt rc) ∧ XerKept s t ∧ Frame [rt] s t

/-- A defined doubleword quotient `q`. -/
def FullQuotient (q : Word) (s t : State) (rt : Reg) (rc : Bool) : Prop :=
  t.readGpr rt = some q ∧ RecordedIf rc q s t

/-- A defined word quotient `q`: the high half of RT is a draw, and so are CR0's LT, GT and EQ when Rc = 1. -/
def WordQuotient (q : BitVec 32) (s t : State) (rt : Reg) (rc : Bool) : Prop :=
  t.readGpr rt = some (s.draw 32 ++ q) ∧ (if rc then FieldZeroDrawn (s.drawn.draw 3) s.so s t else t.cr = s.cr)

/-! ### Compares -/

/-- The low word of a value, signed. -/
def signedLow (v : Word) : Int := (v.extractLsb' 0 32).toInt

/-- The low word of a value, unsigned. -/
def unsignedLow (v : Word) : Nat := (v.extractLsb' 0 32).toNat

/-- Completion of a compare of `x` and `y` into CR field `bf` (44_compare_logical.md R400, 10_state.md R49). -/
def ComparesTo (i : Instr) (bf : BitVec 3) (x y : Int) (s : State) : Prop :=
  Completes i s fun t => Compared bf x y s.so s t ∧ XerKept s t ∧ Frame [] s t

/-- A signed word division has no quotient (R377). -/
def NoWordQuotient (a b : Word) : Prop := signedLow b = 0 ∨ (signedLow a = -(2 ^ 31) ∧ signedLow b = -1)

/-! ### Rotates and shifts -/

/-- A rotate or shift that records by Rc and writes no XER bit. -/
def Rotate1 (mk : Reg → Reg → Bool → Instr) (f : Word → Word) : Prop :=
  ∀ rs ra rc s a, s.readGpr rs = some a → WritesResult (mk rs ra rc) ra rc (f a) s

/-- A rotate or shift of GPR[RS] by GPR[RB], or an insert into the old GPR[RA]. -/
def Rotate2 (mk : Reg → Reg → Reg → Bool → Instr) (second : Reg → Reg → Reg) (f : Word → Word → Word) : Prop :=
  ∀ rs ra rb rc s a b, s.readGpr rs = some a → s.readGpr (second ra rb) = some b →
    WritesResult (mk rs ra rb rc) ra rc (f a b) s

/-- Completion of a shift-algebraic instruction: the exact source integer `v` shifted right by n, the CA request under
`reference` and `architectural` (45_rotate_shift.md R450); `lost` says that a 1 bit was shifted out. -/
def ShiftsAlgebraic (i : Instr) (ra : Reg) (rc : Bool) (v : Int) (n : Nat) (lost : Prop) (s : State) : Prop :=
  (s.params.caOvMode = .reference ∨ s.params.caOvMode = .architectural) →
    Completes i s fun t =>
      ∃ res : Word, t.readGpr ra = some res ∧ res.toInt = v >>> n ∧ RecordedIf rc res s t ∧ Frame [ra] s t
        ∧ t.so = s.so ∧ t.ov = s.ov ∧ (s.params.caOvMode = .reference → t.ca = s.ca)
        ∧ (s.params.caOvMode = .architectural → (t.ca = true ↔ v < 0 ∧ lost))

/-! ### Loads and stores -/

/-- What a load of n bytes at `ea` into `rt` does (42_load_store.md R281, R285): it completes with the value when the
access is one the machine makes, and otherwise stops with MisalignedData or as stuck, in that order. -/
def LoadsAt (i : Instr) (ea : Word) (n : Nat) (value : BitVec (8 * n) → Word) (rt : Reg) (s : State) : Prop :=
  (Accessible s .read ea n →
    Completes i s fun t => t.readGpr rt = some (value (memRead s.mem ea n)) ∧ OnlyGprs [rt] s t)
    ∧ (ea.toNat % n ≠ 0 → s.params.misalignedData = .fault → exec i s = .fault (.misalignedData ea n))
    ∧ ((ea.toNat % n = 0 ∨ s.params.misalignedData = .allow) → s.admits ea n .read = false →
        exec i s = .fault (.stuck ea n .read))

/-- A D-form load, not update: EA = (RA|0) + sext_16(D). -/
def LoadD (mk : Reg → Reg → BitVec 16 → Instr) (n : Nat) (value : BitVec (8 * n) → Word) : Prop :=
  ∀ rt ra d s base, s.readGprOrZero ra = some base → LoadsAt (mk rt ra d) (base + sext d) n value rt s

/-- A DS-form load, not update: EA = (RA|0) + sext_16(DS || 0b00). -/
def LoadDS (mk : Reg → Reg → BitVec 14 → Instr) (n : Nat) (value : BitVec (8 * n) → Word) : Prop :=
  ∀ rt ra ds s base, s.readGprOrZero ra = some base → LoadsAt (mk rt ra ds) (base + sext (ds ++ 0#2)) n value rt s

/-- An X-form load, not update: EA = (RA|0) + GPR[RB]. -/
def LoadX (mk : Reg → Reg → Reg → Instr) (n : Nat) (value : BitVec (8 * n) → Word) : Prop :=
  ∀ rt ra rb s base x, s.readGprOrZero ra = some base → s.readGpr rb = some x →
    LoadsAt (mk rt ra rb) (base + x) n value rt s

/-- What an update-form load that decodes does (R130: RA is not RT): RT gets the value and RA gets EA. -/
def LoadsUpdateAt (i : Instr) (ea : Word) (n : Nat) (value : BitVec (8 * n) → Word) (rt ra : Reg) (s : State) : Prop :=
  (Accessible s .read ea n →
    Completes i s fun t => t.readGpr rt = some (value (memRead s.mem ea n)) ∧ t.readGpr ra = some ea
      ∧ OnlyGprs [rt, ra] s t)
    ∧ (ea.toNat % n ≠ 0 → s.params.misalignedData = .fault → exec i s = .fault (.misalignedData ea n))
    ∧ ((ea.toNat % n = 0 ∨ s.params.misalignedData = .allow) → s.admits ea n .read = false →
        exec i s = .fault (.stuck ea n .read))

/-- A D-form load with update. -/
def LoadUpdateD (mk : Reg → Reg → BitVec 16 → Instr) (n : Nat) (value : BitVec (8 * n) → Word) : Prop :=
  ∀ rt ra d s base, ra ≠ rt → s.readGpr ra = some base →
    LoadsUpdateAt (mk rt ra d) (base + sext d) n value rt ra s

/-- A DS-form load with update. -/
def LoadUpdateDS (mk : Reg → Reg → BitVec 14 → Instr) (n : Nat) (value : BitVec (8 * n) → Word) : Prop :=
  ∀ rt ra ds s base, ra ≠ rt → s.readGpr ra = some base →
    LoadsUpdateAt (mk rt ra ds) (base + sext (ds ++ 0#2)) n value rt ra s

/-- An X-form load with update. -/
def LoadUpdateX (mk : Reg → Reg → Reg → Instr) (n : Nat) (value : BitVec (8 * n) → Word) : Prop :=
  ∀ rt ra rb s base x, ra ≠ rt → s.readGpr ra = some base → s.readGpr rb = some x →
    LoadsUpdateAt (mk rt ra rb) (base + x) n value rt ra s

/-- What a store of the 8n-bit value `v` at `ea` does (R282, R285), with the general registers `rs` written as
`registers` says. -/
def StoresAt (i : Instr) (ea : Word) (n : Nat) (v : BitVec (8 * n)) (rs : List Reg) (registers : State → Prop)
    (s : State) : Prop :=
  (Accessible s .write ea n → Completes i s fun t => Stored ea n v rs s t ∧ registers t)
    ∧ (ea.toNat % n ≠ 0 → s.params.misalignedData = .fault → exec i s = .fault (.misalignedData ea n))
    ∧ ((ea.toNat % n = 0 ∨ s.params.misalignedData = .allow) → s.admits ea n .write = false →
        exec i s = .fault (.stuck ea n .write))

/-- A D-form store, not update: the low 8n bits of GPR[RS] are stored. -/
def StoreD (mk : Reg → Reg → BitVec 16 → Instr) (n : Nat) : Prop :=
  ∀ rs ra d s base v, s.readGprOrZero ra = some base → s.readGpr rs = some v →
    StoresAt (mk rs ra d) (base + sext d) n (v.setWidth (8 * n)) [] (fun _ => True) s

/-- A DS-form store, not update. -/
def StoreDS (mk : Reg → Reg → BitVec 14 → Instr) (n : Nat) : Prop :=
  ∀ rs ra ds s base v, s.readGprOrZero ra = some base → s.readGpr rs = some v →
    StoresAt (mk rs ra ds) (base + sext (ds ++ 0#2)) n (v.setWidth (8 * n)) [] (fun _ => True) s

/-- An X-form store, not update: `value` makes the stored bits from the low 8n bits of GPR[RS]. -/
def StoreX (mk : Reg → Reg → Reg → Instr) (n : Nat) (value : BitVec (8 * n) → BitVec (8 * n)) : Prop :=
  ∀ rs ra rb s base x v, s.readGprOrZero ra = some base → s.readGpr rb = some x → s.readGpr rs = some v →
    StoresAt (mk rs ra rb) (base + x) n (value (v.setWidth (8 * n))) [] (fun _ => True) s

/-- A D-form store with update: the old GPR[RS] is stored, then RA gets EA. -/
def StoreUpdateD (mk : Reg → Reg → BitVec 16 → Instr) (n : Nat) : Prop :=
  ∀ rs ra d s base v, s.readGpr ra = some base → s.readGpr rs = some v →
    StoresAt (mk rs ra d) (base + sext d) n (v.setWidth (8 * n)) [ra]
      (fun t => t.readGpr ra = some (base + sext d)) s

/-- A DS-form store with update. -/
def StoreUpdateDS (mk : Reg → Reg → BitVec 14 → Instr) (n : Nat) : Prop :=
  ∀ rs ra ds s base v, s.readGpr ra = some base → s.readGpr rs = some v →
    StoresAt (mk rs ra ds) (base + sext (ds ++ 0#2)) n (v.setWidth (8 * n)) [ra]
      (fun t => t.readGpr ra = some (base + sext (ds ++ 0#2))) s

/-- An X-form store with update. -/
def StoreUpdateX (mk : Reg → Reg → Reg → Instr) (n : Nat) : Prop :=
  ∀ rs ra rb s base x v, s.readGpr ra = some base → s.readGpr rb = some x → s.readGpr rs = some v →
    StoresAt (mk rs ra rb) (base + x) n (v.setWidth (8 * n)) [ra] (fun t => t.readGpr ra = some (base + x)) s

/-! ### Branches -/

/-- The two ends of a branch (40_branch.md R227): taken, LR written when it links and PC the target; not taken, PC at
CIA + 4 and LR unchanged. CTR is `ctr` in both. -/
def BranchEnds (i : Instr) (link : Bool) (taken : Prop) (target : Word) (ctr : Option Word) (s : State) : Prop :=
  (taken → exec i s
      = .next { s with ctr := ctr, lr := if link then some (s.pc + 4#64) else s.lr, pc := target })
    ∧ (¬ taken → exec i s = .next { s with ctr := ctr, pc := s.pc + 4#64 })

/-- A conditional branch with its target at `target`: taken always, on the CR bit alone, or on the decremented CTR and
the CR bit; an unset CTR that must be decremented faults. -/
def ConditionalBranch (i : Instr) (bo bi : BitVec 5) (link : Bool) (target : Word) (s : State) : Prop :=
  (Always bo → BranchEnds i link True target s.ctr s)
    ∧ (¬ Always bo → bo.getLsbD 2 = true → BranchEnds i link (Taken bo bi 0#64 s.cr) target s.ctr s)
    ∧ (∀ c, ¬ Always bo → bo.getLsbD 2 = false → s.ctr = some c →
        BranchEnds i link (Taken bo bi (c - 1#64) s.cr) target (some (c - 1#64)) s)
    ∧ (bo.getLsbD 2 = false → s.ctr = none → exec i s = .fault .unsetRegister)

/-- A B-form branch. -/
def BranchB (mk : BitVec 5 → BitVec 5 → BitVec 14 → Instr) (absolute link : Bool) : Prop :=
  ∀ bo bi bd s,
    ConditionalBranch (mk bo bi bd) bo bi link (if absolute then sext (bd ++ 0#2) else s.pc + sext (bd ++ 0#2)) s

/-- A branch to LR: the target is the old LR with its low two bits cleared; an unset LR faults, taken or not. -/
def BranchLR (mk : BitVec 5 → BitVec 5 → BitVec 2 → Instr) (link : Bool) : Prop :=
  ∀ bo bi bh s,
    (∀ l, s.lr = some l → ConditionalBranch (mk bo bi bh) bo bi link (l &&& ~~~3#64) s)
      ∧ (s.lr = none → exec (mk bo bi bh) s = .fault .unsetRegister)

/-- A branch to CTR with BO2 = 1: the target is CTR with its low two bits cleared, and CTR is unchanged. -/
def BranchCTR (mk : BitVec 5 → BitVec 5 → BitVec 2 → Instr) (link : Bool) : Prop :=
  ∀ bo bi bh s, bo.getLsbD 2 = true →
    (∀ c, s.ctr = some c →
      BranchEnds (mk bo bi bh) link (Always bo ∨ Taken bo bi 0#64 s.cr) (c &&& ~~~3#64) s.ctr s)
      ∧ (s.ctr = none → exec (mk bo bi bh) s = .fault .unsetRegister)

/-! ### Condition register -/

/-- A CR-logical instruction (41_cr.md R250): one bit is overwritten, from inputs read before the write, and no flag
request is made. -/
def CrLogical (mk : BitVec 5 → BitVec 5 → BitVec 5 → Instr) (op : Bool → Bool → Bool) : Prop :=
  ∀ bt ba bb s, Completes (mk bt ba bb) s fun t =>
    t.cr.getLsbD (31 - bt.toNat) = op (s.cr.getLsbD (31 - ba.toNat)) (s.cr.getLsbD (31 - bb.toNat))
      ∧ (∀ i : BitVec 5, i ≠ bt → t.cr.getLsbD (31 - i.toNat) = s.cr.getLsbD (31 - i.toNat))
      ∧ XerKept s t ∧ Frame [] s t ∧ flagRequest (mk bt ba bb) = 0#2

/-- FXM has exactly the bit of field f set: bit 7-f (30_encoding.md R113). -/
def OneHot (fxm : BitVec 8) (f : BitVec 3) : Prop := ∀ g : BitVec 3, fxm.getLsbD (7 - g.toNat) = true ↔ g = f

/-! ### Traps -/

/-- The trap condition of a TO field (46_system.md R531) on signed operands x, y and unsigned operands u, v. -/
def TrapHolds (toBits : BitVec 5) (x y : Int) (u v : Nat) : Prop :=
  (toBits.getLsbD 4 = true ∧ x < y) ∨ (toBits.getLsbD 3 = true ∧ y < x) ∨ (toBits.getLsbD 2 = true ∧ u = v)
    ∨ (toBits.getLsbD 1 = true ∧ u < v) ∨ (toBits.getLsbD 0 = true ∧ v < u)

/-- What a trap instruction does on these operands: it traps with CIA, or moves PC to CIA + 4 and changes nothing. -/
def TrapsOn (i : Instr) (holds : Prop) (s : State) : Prop :=
  (¬ holds → exec i s = .next { s with pc := s.pc + 4#64 }) ∧ (holds → exec i s = .fault (.trapTaken s.pc))

end Sys2Proof.Claims

open Sys2Proof Sys2Proof.Machine Sys2Proof.Config Sys2Proof.Safety Sys2Proof.Claims

/-! ### Encoding and decoding -/

/-- 30_encoding.md R120 to R132: every well-formed instruction, with every operand value, is what its own word decodes
to. -/
def Obligations.DecodeOfEncode : Prop := ∀ i : Instr, i.wellFormed = true → decode (encode i) = .success i

/-- R130 to R132: what a word decodes to is well formed. -/
def Obligations.DecodedIsWellFormed : Prop := ∀ (w : InsnWord) (i : Instr), decode w = .success i → i.wellFormed = true

/-- R129, R130 (10_state.md R34): decode fails for exactly the three causes, read off the word's own bits. -/
def Obligations.DecodeFailsForThreeCauses : Prop :=
  ∀ w : InsnWord,
    (decode w = .failure .reservedPrimary ↔ ReservedPrimary w)
      ∧ (decode w = .failure .reservedSecondary ↔ ReservedSecondary w)
      ∧ (decode w = .failure .invalidUpdateForm ↔ InvalidUpdate w)

/-- R131: a word decodes as passthrough exactly when its primary entry is passthrough or its key in group 19, 31 or 62
reaches the decoder-defined default. -/
def Obligations.PassthroughWords : Prop :=
  ∀ w : InsnWord, decode w = .success (.passthrough w) ↔ isPassthroughWord w = true

/-- R134: bits a form does not use change neither the verdict nor the instruction. The forms here: sc (all but LEV),
extsw's RB field, the compares' W[22] and W[0], the fields of sync, isync and eieio, addme's RB field, mfcr's FXM
field, and the LK bit of mcrf. -/
def Obligations.UnusedBitsIgnored : Prop :=
  (∀ (x : BitVec 14) (lev : BitVec 7) (y : BitVec 5), decode (17#6 ++ x ++ lev ++ y) = .success (.sc lev))
    ∧ (∀ (rs ra rb : Reg) (rc : Bool), decode (formX 31 rs ra rb 986 rc) = .success (.extsw rs ra rc))
    ∧ (∀ (bf : BitVec 3) (x y l : Bool) (ra rb : Reg),
        decode (formX 31 (bf ++ BitVec.ofBool x ++ BitVec.ofBool l) ra rb 0 y) = .success (.cmp bf l ra rb))
    ∧ (∀ (bf : BitVec 3) (x l : Bool) (ra : Reg) (si : BitVec 16),
        decode (formD 11 (bf ++ BitVec.ofBool x ++ BitVec.ofBool l) ra si) = .success (.cmpi bf l ra si))
    ∧ (∀ (x : BitVec 3) (l : BitVec 2) (ra rb : Reg) (y : Bool),
        decode (formX 31 (x ++ l) ra rb 598 y) = .success (.sync l))
    ∧ (∀ (x y z : Reg) (b : Bool), decode (formX 19 x y z 150 b) = .success .isync)
    ∧ (∀ (x y z : Reg) (b : Bool), decode (formX 31 x y z 854 b) = .success .eieio)
    ∧ (∀ (rt ra x : Reg) (oe rc : Bool), decode (formXO 31 rt ra x oe 234 rc) = .success (.addme rt ra oe rc))
    ∧ (∀ (rt : Reg) (fxm : BitVec 8), decode (formXFXCr 31 rt false fxm 19) = .success (.mfcr rt))
    ∧ (∀ (bf bfa : BitVec 3) (x y : BitVec 2) (z : Reg) (b : Bool),
        decode (formX 19 (bf ++ x) (bfa ++ y) z 0 b) = .success (.mcrf bf bfa))

/-- Words of 95_test_vectors.md and the per-instruction examples, one or more from each family, decode to the
instruction they stand for. -/
def Obligations.ExampleWordsDecode : Prop :=
  decode 0x4BFFFFFC#32 = .success (.b 0xFFFFFF#24)
    ∧ decode 0x4182000C#32 = .success (.bc 12#5 2#5 3#14)
    ∧ decode 0x4E800020#32 = .success (.bclr 20#5 0#5 0#2)
    ∧ decode 0x4C400A02#32 = .success (.crand 2#5 0#5 1#5)
    ∧ decode 0x7C720026#32 = .success (.mfocrf 3#5 0x20#8)
    ∧ decode 0x88640008#32 = .success (.lbz 3#5 4#5 8#16)
    ∧ decode 0xE8640009#32 = .success (.ldu 3#5 4#5 2#14)
    ∧ decode 0x7C642F2C#32 = .success (.sthbrx 3#5 4#5 5#5)
    ∧ decode 0x3864FFF0#32 = .success (.addi 3#5 4#5 0xFFF0#16)
    ∧ decode 0x3860FFFF#32 = .success (.li 3#5 0xFFFF#16)
    ∧ decode 0x7C642A15#32 = .success (.add 3#5 4#5 5#5 false true)
    ∧ decode 0x7C642BD2#32 = .success (.divd 3#5 4#5 5#5 false false)
    ∧ decode 0x7F842800#32 = .success (.cmp 7#3 false 4#5 5#5)
    ∧ decode 0x60000000#32 = .success .nop
    ∧ decode 0x7C832378#32 = .success (.mr 4#5 3#5 false)
    ∧ decode 0x5483402E#32 = .success (.rlwinm 4#5 3#5 8#5 0#5 23#5 false)
    ∧ decode 0x788307C6#32 = .success (.rldicr 4#5 3#5 32#6 31#6 false)
    ∧ decode 0x7C830E76#32 = .success (.sradi 4#5 3#5 33#6 false)
    ∧ decode 0x7C6802A6#32 = .success (.mfspr 3#5 8#10)
    ∧ decode 0x7CA32088#32 = .success (.td 5#5 3#5 4#5)
    ∧ decode 0x44000002#32 = .success (.sc 0#7)

/-! ### Arithmetic of fields -/

/-- R117: sign extension copies the field's top bit into every higher bit, so the 64-bit integer is the field's own. -/
def Obligations.SignExtensionKeepsValue : Prop :=
  (∀ v : BitVec 16, (sext v).toInt = v.toInt) ∧ (∀ v : BitVec 26, (sext v).toInt = v.toInt)
    ∧ (∀ v : BitVec 32, (sext v).toInt = v.toInt) ∧ (∀ v : BitVec 8, (sext v).toInt = v.toInt)
    ∧ (∀ v : BitVec 16, (signExtendField 16 (v.setWidth 32) : BitVec 32).toInt = v.toInt)
    ∧ (∀ v : BitVec 26, (signExtendField 26 (v.setWidth 32) : BitVec 32).toInt = v.toInt)
    ∧ (∀ v : BitVec 32, signExtendField 32 v = v)

/-- R119: the mask has ones at IBM bits mb..me, or at mb..63 and 0..me when mb > me; IBM bit i is LSB-0 bit 63-i. It is
all ones when mb = me + 1 (mod 64), and never empty. -/
def Obligations.RotateMaskBits : Prop :=
  (∀ mb me i : Nat, mb < 64 → me < 64 → i < 64 →
    ((rotateMask mb me).getLsbD (63 - i) = true ↔ if mb ≤ me then mb ≤ i ∧ i ≤ me else mb ≤ i ∨ i ≤ me))
    ∧ (∀ mb me : Nat, mb < 64 → me < 64 → rotateMask mb me ≠ 0#64)
    ∧ (∀ mb me : Nat, mb < 64 → me < 64 → mb % 64 = (me + 1) % 64 → rotateMask mb me = BitVec.allOnes 64)

/-- 00_scope.md R16: ROTL64 moves bit j to bit j + n mod 64; ROTL32 rotates the doubled low word. -/
def Obligations.RotateBits : Prop :=
  (∀ (x : Word) (n j : Nat), j < 64 → (rotl64 x n).getLsbD ((j + n) % 64) = x.getLsbD j)
    ∧ (∀ (x : Word) (n j : Nat), j < 64 → (rotl32 x n).getLsbD ((j + n) % 64) = x.getLsbD (j % 32))

/-! ### The step -/

/-- 60_exceptions.md R602, 30_encoding.md R100: when nothing stops the fetch and the four bytes at PC, the first the
most significant, decode to an instruction, the step runs exactly that instruction. -/
def Obligations.StepRunsDecoded : Prop :=
  ∀ (s : State) (i : Instr), s.pc ≠ s.exit → s.pc.toNat % 4 = 0 → s.admits s.pc 4 .fetch = true →
    (∀ k, k < 4 → (s.pc + BitVec.ofNat 64 k).toNat ∉ s.written) →
    decode (s.mem.read s.pc.toNat ++ s.mem.read (s.pc + 1#64).toNat ++ s.mem.read (s.pc + 2#64).toNat
      ++ s.mem.read (s.pc + 3#64).toNat) = .success i →
    step s = exec i s

/-- R602, R605, R607: the order of what stops a step before an instruction runs. -/
def Obligations.StepStopsInOrder : Prop :=
  ∀ s : State,
    (s.pc = s.exit → step s = .fault .halted)
      ∧ (s.pc ≠ s.exit → s.pc.toNat % 4 ≠ 0 → step s = .fault (.misalignedFetch s.pc))
      ∧ (s.pc ≠ s.exit → s.pc.toNat % 4 = 0 → s.admits s.pc 4 .fetch = false → step s = .fault (.stuck s.pc 4 .fetch))
      ∧ (s.pc ≠ s.exit → s.pc.toNat % 4 = 0 → s.admits s.pc 4 .fetch = true →
          (∃ k, k < 4 ∧ (s.pc + BitVec.ofNat 64 k).toNat ∈ s.written) → step s = .fault (.modifiedCodeFetch s.pc))
      ∧ (s.pc ≠ s.exit → s.pc.toNat % 4 = 0 → s.admits s.pc 4 .fetch = true →
          (∀ k, k < 4 → (s.pc + BitVec.ofNat 64 k).toNat ∉ s.written) →
          ReservedPrimary s.fetchWord ∨ ReservedSecondary s.fetchWord ∨ InvalidUpdate s.fetchWord →
          step s = .fault (.illegalInstruction s.fetchWord))

/-- R604: each fault an instruction raises comes from the instructions and the conditions the table gives it; no other
fault exists. -/
def Obligations.FaultsComeFromTheirCauses : Prop :=
  ∀ (i : Instr) (s : State) (f : Fault), exec i s = .fault f →
    match f with
    | .illegalInstruction w => i = .reserved w
    | .unsetRegister =>
      (∃ r, r ∈ gprSources s.params i ∧ s.readGpr r = none) ∨ (readsLr i = true ∧ s.lr = none)
        ∨ (readsCtr i = true ∧ s.ctr = none)
    | .misalignedData ea n =>
      (isLoad i = true ∨ isStore i = true) ∧ s.params.misalignedData = .fault ∧ ea.toNat % n ≠ 0
    | .trapTaken cia => isTrap i = true ∧ cia = s.pc
    | .systemCall lev => i = .sc lev
    | .stuck ea n kind =>
      s.admits ea n kind = false ∧ ((isLoad i = true ∧ kind = .read) ∨ (isStore i = true ∧ kind = .write))
    | .misalignedFetch _ | .modifiedCodeFetch _ | .halted => False

/-- 10_state.md R53, 60 R602: an instruction that reads an unset general register ends in `Fault(UnsetRegister)`. -/
def Obligations.UnsetSourceFaults : Prop :=
  ∀ (i : Instr) (s : State) (r : Reg), r ∈ gprSources s.params i → s.readGpr r = none →
    exec i s = .fault .unsetRegister

/-- 70 R702, 60 R601: the run from a state ends at the first step with another outcome than a next state, with that
outcome and the state its last step started from; within a bound it has not reached one, it stands after that many
steps. It halts exactly where PC equals the exit address. -/
def Obligations.RunEndsAtFirstStop : Prop :=
  ∀ (n : Nat) (s t : State),
    (runFrom n s = .running t ↔ Steps n s t)
      ∧ (runFrom n s = .halt t ↔ ∃ k, k < n ∧ Steps k s t ∧ t.pc = t.exit)
      ∧ (∀ f, runFrom n s = .fault f t ↔ ∃ k, k < n ∧ Steps k s t ∧ step t = .fault f ∧ f.code ≠ none)
      ∧ (∀ r, runFrom n s = .refusal r t ↔ ∃ k, k < n ∧ Steps k s t ∧ step t = .refused r)
      ∧ (∀ a m kind, runFrom n s = .stuck a m kind t ↔ ∃ k, k < n ∧ Steps k s t ∧ step t = .fault (.stuck a m kind))

/-! ### What every step keeps -/

/-- The invariant: memory's canonical form (the model's own), the written-bytes set's order, PC a multiple of 4. -/
def Obligations.StepKeepsInvariant : Prop := ∀ s t : State, Inv s → step s = .next t → Inv t

/-- The invariant holds right after reset; the reset values themselves are the model's choice (assumption logs 1 to 4). -/
def Obligations.ResetMeetsInvariant : Prop := Inv State.reset

/-- 70 R701: the start state holds the launch record's members, and the written-bytes set is empty. -/
def Obligations.LaunchGivesStart : Prop :=
  ∀ (l : Launch) (p : Params),
    (∀ r : Reg, (l.start p).readGpr r = l.gpr[r.toNat]'r.isLt) ∧ (l.start p).lr = l.lr ∧ (l.start p).ctr = l.ctr
      ∧ (l.start p).cr = l.cr ∧ (l.start p).so = l.so ∧ (l.start p).ov = l.ov ∧ (l.start p).ca = l.ca
      ∧ (l.start p).pc = l.entry ∧ (l.start p).mem = l.mem ∧ (l.start p).admitted = l.admission
      ∧ (l.start p).exit = l.exit ∧ (l.start p).written = []

/-- 10_state.md R53: a step never makes a set register unset; 20_memory.md R87: nor does it lift the mark of a stored
byte; 00_scope.md R9, 70 R701: it changes neither the parameters, the exit address nor the admission predicate. -/
def Obligations.StepKeepsSetAndLaunch : Prop :=
  ∀ s t : State, step s = .next t →
    (∀ r, s.readGpr r ≠ none → t.readGpr r ≠ none) ∧ (s.lr ≠ none → t.lr ≠ none) ∧ (s.ctr ≠ none → t.ctr ≠ none)
      ∧ (∀ a, a ∈ s.written → a ∈ t.written) ∧ LaunchKept s t

/-- R37: an instruction that is no branch ends with PC at CIA + 4. -/
def Obligations.NonBranchAdvancesPc : Prop :=
  ∀ (i : Instr) (s t : State), isBranch i = false → exec i s = .next t → t.pc = s.pc + 4#64

/-- R47: under `reference` no instruction other than `mtspr 1` writes XER.CA, XER.OV or XER.SO. -/
def Obligations.XerWrittenOnlyByMtxer : Prop :=
  ∀ (i : Instr) (s t : State), s.params.caOvMode = .reference → (∀ rs, i ≠ .mtspr rs 1#10) → exec i s = .next t →
    XerKept s t

/-- 20_memory.md R70, R78: only the stores change memory or the written-bytes set. -/
def Obligations.OnlyStoresChangeMemory : Prop :=
  ∀ (i : Instr) (s t : State), isStore i = false → exec i s = .next t → MemKept s t

/-- 10_state.md R41, R42: LR is written by linking branches and `mtspr 8` only, CTR by branches that may decrement it
and `mtspr 9` only. -/
def Obligations.LinkAndCountWriters : Prop :=
  ∀ (i : Instr) (s t : State), exec i s = .next t →
    (isLinking i = false → (∀ rs, i ≠ .mtspr rs 8#10) → t.lr = s.lr)
      ∧ (mayDecrement i = false → (∀ rs, i ≠ .mtspr rs 9#10) → t.ctr = s.ctr)

/-- 10_state.md R44, 30_encoding.md R138: an instruction whose flag request has no comparison bit, and which is none of
the explicit CR writers, leaves CR as it was. -/
def Obligations.CrWrittenOnlyOnRequest : Prop :=
  ∀ (i : Instr) (s t : State), (flagRequest i).getLsbD 0 = false → writesCrExplicitly i = false → exec i s = .next t →
    t.cr = s.cr

/-! ### Memory -/

/-- 20_memory.md R72 to R74: MemWrite stores byte k of the value, the most significant first, at addr + k, MemRead gives
the byte at addr + k as byte k, and ByteRev reverses the order of the bytes. -/
def Obligations.MemoryIsBigEndian : Prop :=
  ∀ (m : Memory) (ea : Word) (n : Nat), n ∈ [1, 2, 4, 8] →
    (∀ v : BitVec (8 * n), BytesAt (memWrite m ea n v) ea n v
        ∧ ∀ a, ¬ InBytes ea n a → (memWrite m ea n v).read a = m.read a)
      ∧ BytesAt m ea n (memRead m ea n)
      ∧ (∀ (v : BitVec (8 * n)) (k : Nat), k < n →
          (byteRev n v).extractLsb' (8 * k) 8 = v.extractLsb' (8 * (n - 1 - k)) 8)

/-- R81, R84: a load returns the most recent write to each byte, whatever width that write had: when a store of any
form completes and then a load of any form does, each byte the load reads is the byte the store put at that address, and
where the store put none the byte of memory before it. -/
def Obligations.LoadAfterStore : Prop :=
  ∀ (i j : Instr) (s t u : State) (ea : Word) (bs : List Byte) (l : LoadAccess), storeAccess s i = some (ea, bs) →
    exec i s = .next t → j.wellFormed = true → loadAccess t j = some l → exec j t = .next u →
    u.readGpr l.rt
      = some (l.value ((List.range l.size).map fun k => byteAfter s.mem ea bs (l.ea + BitVec.ofNat 64 k)))

/-- R87: a fetch of any byte that a store has written faults, from every later state that still has the mark. -/
def Obligations.FetchOfStoredByteFaults : Prop :=
  ∀ (rs ra : Reg) (d : BitVec 16) (s t u : State) (ea : Word) (j k : Nat), eaD ra d s = some ea →
    exec (.stw rs ra d) s = .next t → (∀ a, a ∈ t.written → a ∈ u.written) →
    u.pc ≠ u.exit → u.pc.toNat % 4 = 0 → u.admits u.pc 4 .fetch = true → j < 4 → k < 4 →
    u.pc + BitVec.ofNat 64 j = ea + BitVec.ofNat 64 k → step u = .fault (.modifiedCodeFetch u.pc)

/-! ### Loads and stores -/

/-- 42_load_store.md R281, R283, R313, R314: lbz, lbzx, lhz, lhzx, lwz, lwzx, ld and ldx zero-extend; lha, lhax, lwa and
lwax sign-extend; lhbrx and lwbrx reverse the bytes, then zero-extend. -/
def Obligations.LoadsPlain : Prop :=
  LoadD .lbz 1 zext ∧ LoadX .lbzx 1 zext ∧ LoadD .lhz 2 zext ∧ LoadX .lhzx 2 zext ∧ LoadD .lwz 4 zext
    ∧ LoadX .lwzx 4 zext ∧ LoadDS .ld 8 zext ∧ LoadX .ldx 8 zext
    ∧ LoadD .lha 2 (BitVec.signExtend 64) ∧ LoadX .lhax 2 (BitVec.signExtend 64) ∧ LoadDS .lwa 4 (BitVec.signExtend 64)
    ∧ LoadX .lwax 4 (BitVec.signExtend 64)
    ∧ LoadX .lhbrx 2 (fun v => zext (byteRev 2 v)) ∧ LoadX .lwbrx 4 (fun v => zext (byteRev 4 v))

/-- R281: the update-form loads lbzu, lbzux, lhzu, lhzux, lhau, lhaux, lwzu, lwzux, lwaux, ldu and ldux. -/
def Obligations.LoadsWithUpdate : Prop :=
  LoadUpdateD .lbzu 1 zext ∧ LoadUpdateX .lbzux 1 zext ∧ LoadUpdateD .lhzu 2 zext ∧ LoadUpdateX .lhzux 2 zext
    ∧ LoadUpdateD .lhau 2 (BitVec.signExtend 64) ∧ LoadUpdateX .lhaux 2 (BitVec.signExtend 64)
    ∧ LoadUpdateD .lwzu 4 zext ∧ LoadUpdateX .lwzux 4 zext ∧ LoadUpdateX .lwaux 4 (BitVec.signExtend 64)
    ∧ LoadUpdateDS .ldu 8 zext ∧ LoadUpdateX .ldux 8 zext

/-- R282, R336, R337: stb, stbx, sth, sthx, stw, stwx, std and stdx store the low bytes of RS, big-endian; sthbrx and
stwbrx store them in reversed order. -/
def Obligations.StoresPlain : Prop :=
  StoreD .stb 1 ∧ StoreX .stbx 1 id ∧ StoreD .sth 2 ∧ StoreX .sthx 2 id ∧ StoreD .stw 4 ∧ StoreX .stwx 4 id
    ∧ StoreDS .std 8 ∧ StoreX .stdx 8 id ∧ StoreX .sthbrx 2 (byteRev 2) ∧ StoreX .stwbrx 4 (byteRev 4)

/-- R282: stbu, stbux, sthu, sthux, stwu, stwux, stdu and stdux store the old RS and then write EA to RA. -/
def Obligations.StoresWithUpdate : Prop :=
  StoreUpdateD .stbu 1 ∧ StoreUpdateX .stbux 1 ∧ StoreUpdateD .sthu 2 ∧ StoreUpdateX .sthux 2
    ∧ StoreUpdateD .stwu 4 ∧ StoreUpdateX .stwux 4 ∧ StoreUpdateDS .stdu 8 ∧ StoreUpdateX .stdux 8

/-! ### Branches -/

/-- 40_branch.md R201, R209, R215 to R218: b, ba, bl and bla. -/
def Obligations.UnconditionalBranches : Prop :=
  ∀ (li : BitVec 24) (s : State),
    exec (.b li) s = .next { s with pc := s.pc + BitVec.signExtend 64 (li ++ 0#2) }
      ∧ exec (.ba li) s = .next { s with pc := BitVec.signExtend 64 (li ++ 0#2) }
      ∧ exec (.bl li) s
          = .next { s with lr := some (s.pc + 4#64), pc := s.pc + BitVec.signExtend 64 (li ++ 0#2) }
      ∧ exec (.bla li) s = .next { s with lr := some (s.pc + 4#64), pc := BitVec.signExtend 64 (li ++ 0#2) }

/-- R204 to R208, R210, R211: bc, bca, bcl and bcla; bclr and bclrl, whose target is the old LR; bcctr and bcctrl with
BO2 = 1. -/
def Obligations.ConditionalBranches : Prop :=
  BranchB .bc false false ∧ BranchB .bca true false ∧ BranchB .bcl false true ∧ BranchB .bcla true true
    ∧ BranchLR .bclr false ∧ BranchLR .bclrl true ∧ BranchCTR .bcctr false ∧ BranchCTR .bcctrl true

/-- R230 to R238: the metadata edges and the execution never disagree: a branch with an immediate target ends at the
address of one of its word's edges, and a word of any other instruction but bclr, bclrl, bcctr and bcctrl has none. -/
def Obligations.EdgesAgreeWithExecution : Prop :=
  ∀ (w : InsnWord) (i : Instr) (s t : State), decode w = .success i → exec i s = .next t →
    ((w.extractLsb' 26 6 = 18#6 ∨ w.extractLsb' 26 6 = 16#6) → ∃ e ∈ edges w s.pc, e.2 = t.pc)
      ∧ (isBranch i = false → edges w s.pc = [])

/-! ### Condition register -/

/-- 41_cr.md R250 to R258: the eight CR-logical instructions. -/
def Obligations.CrLogicalInstructions : Prop :=
  CrLogical .crand (fun a b => a && b) ∧ CrLogical .crnand (fun a b => !(a && b)) ∧ CrLogical .cror (fun a b => a || b)
    ∧ CrLogical .crxor (fun a b => a != b) ∧ CrLogical .crnor (fun a b => !(a || b))
    ∧ CrLogical .creqv (fun a b => a == b) ∧ CrLogical .crandc (fun a b => a && !b)
    ∧ CrLogical .crorc (fun a b => a || !b)

/-- R259, R260, R262: mcrf, mfcr and mtcrf. -/
def Obligations.CrMoves : Prop :=
  (∀ (bf bfa : BitVec 3) (s : State), Completes (.mcrf bf bfa) s fun t =>
      crField t.cr bf = crField s.cr bfa ∧ OtherFieldsKept bf s t ∧ XerKept s t ∧ Frame [] s t)
    ∧ (∀ (rt : Reg) (s : State), Completes (.mfcr rt) s fun t =>
      t.readGpr rt = some (0#32 ++ s.cr) ∧ OnlyGprs [rt] s t)
    ∧ (∀ (rs : Reg) (fxm : BitVec 8) (s : State) (v : Word), s.readGpr rs = some v →
      Completes (.mtcrf rs fxm) s fun t =>
        (∀ f : BitVec 3, crField t.cr f
          = if fxm.getLsbD (7 - f.toNat) then v.extractLsb' (28 - 4 * f.toNat) 4 else crField s.cr f)
        ∧ XerKept s t ∧ Frame [] s t)

/-- R261, R263: mfocrf and mtocrf, with one field selected or not. -/
def Obligations.CrOneFieldMoves : Prop :=
  (∀ (rt : Reg) (fxm : BitVec 8) (f : BitVec 3) (s : State), OneHot fxm f → Completes (.mfocrf rt fxm) s fun t =>
      ∃ res : Word, t.readGpr rt = some res ∧ res.extractLsb' (28 - 4 * f.toNat) 4 = crField s.cr f
        ∧ (∀ k, k < 28 - 4 * f.toNat ∨ 32 - 4 * f.toNat ≤ k → res.getLsbD k = (s.draw 64).getLsbD k)
        ∧ OnlyGprs [rt] s t)
    ∧ (∀ (rt : Reg) (fxm : BitVec 8) (s : State), (¬ ∃ f, OneHot fxm f) → Completes (.mfocrf rt fxm) s fun t =>
      t.readGpr rt = some (s.draw 64) ∧ OnlyGprs [rt] s t)
    ∧ (∀ (rs : Reg) (fxm : BitVec 8) (f : BitVec 3) (s : State) (v : Word), OneHot fxm f → s.readGpr rs = some v →
      Completes (.mtocrf rs fxm) s fun t =>
        crField t.cr f = v.extractLsb' (28 - 4 * f.toNat) 4 ∧ OtherFieldsKept f s t ∧ XerKept s t ∧ Frame [] s t)
    ∧ (∀ (rs : Reg) (fxm : BitVec 8) (s : State) (v : Word), (¬ ∃ f, OneHot fxm f) → s.readGpr rs = some v →
      Completes (.mtocrf rs fxm) s fun t => t.cr = s.draw 32 ∧ XerKept s t ∧ Frame [] s t)

/-! ### Fixed-point arithmetic -/

/-- 43_arith.md R350 to R353, R357: addi, li, addis, lis and mulli. -/
def Obligations.ImmediateArithmetic : Prop :=
  ∀ (rt ra : Reg) (si : BitVec 16) (s : State),
    (∀ a, s.readGprOrZero ra = some a →
      (Completes (.addi rt ra si) s fun t => t.readGpr rt = some (a + BitVec.signExtend 64 si) ∧ OnlyGprs [rt] s t)
      ∧ (Completes (.addis rt ra si) s fun t =>
          t.readGpr rt = some (a + BitVec.signExtend 64 (si ++ 0#16)) ∧ OnlyGprs [rt] s t))
      ∧ (Completes (.li rt si) s fun t => t.readGpr rt = some (BitVec.signExtend 64 si) ∧ OnlyGprs [rt] s t)
      ∧ (Completes (.lis rt si) s fun t =>
          t.readGpr rt = some (BitVec.signExtend 64 (si ++ 0#16)) ∧ OnlyGprs [rt] s t)
      ∧ (∀ a, s.readGpr ra = some a →
          Completes (.mulli rt ra si) s fun t =>
            t.readGpr rt = some ((BitVec.ofInt 128 (a.toInt * si.toInt)).extractLsb' 0 64) ∧ OnlyGprs [rt] s t)

/-- R358, R363, R368: add, subf and neg, whose OE = 1 forms change no XER bit under `reference`. -/
def Obligations.AddSubtractNegate : Prop :=
  Arith2 .add (fun a b => a + b) ∧ Arith2 .subf (fun a b => b - a)
    ∧ (∀ rt ra oe rc s a, s.readGpr ra = some a → NoOverflowWrite oe s →
        WritesResult (.neg rt ra oe rc) rt rc (-a) s)

/-- R354 to R356, R359 to R362, R364 to R367 under `reference` (10_state.md R47): addic, addic., subfic and the eight
add and subtract instructions with carry. -/
def Obligations.CarryFamilyUnderReference : Prop :=
  Carry2 .addc (fun a b _ => a + b) ∧ Carry2 .adde (fun a b c => a + b + c)
    ∧ Carry1 .addme (fun a c => a + c + 0xFFFFFFFFFFFFFFFF#64) ∧ Carry1 .addze (fun a c => a + c)
    ∧ Carry2 .subfc (fun a b _ => ~~~a + b + 1#64) ∧ Carry2 .subfe (fun a b c => ~~~a + b + c)
    ∧ Carry1 .subfme (fun a c => ~~~a + c + 0xFFFFFFFFFFFFFFFF#64) ∧ Carry1 .subfze (fun a c => ~~~a + c)
    ∧ (∀ rt ra si s a, s.readGpr ra = some a →
        CarryFamily (.addic rt ra si) rt false (a + BitVec.signExtend 64 si) s
          ∧ CarryFamily (.addicRc rt ra si) rt true (a + BitVec.signExtend 64 si) s
          ∧ CarryFamily (.subfic rt ra si) rt false (BitVec.signExtend 64 si - a) s)

/-- R341: CA, OV and SO of the CA-producing sums under `architectural`. -/
def Obligations.ArchitecturalCarry : Prop :=
  ∀ (rt ra rb : Reg) (oe rc : Bool) (si : BitVec 16) (s : State) (a b : Word), s.readGpr ra = some a →
    s.readGpr rb = some b →
    ArchitecturalSum (.addc rt ra rb oe rc) rt oe rc a b false s ∧ ArchitecturalSum (.adde rt ra rb oe rc) rt oe rc a b s.ca s
      ∧ ArchitecturalSum (.addme rt ra oe rc) rt oe rc a (BitVec.allOnes 64) s.ca s
      ∧ ArchitecturalSum (.addze rt ra oe rc) rt oe rc a 0#64 s.ca s
      ∧ ArchitecturalSum (.subfc rt ra rb oe rc) rt oe rc (~~~a) b true s
      ∧ ArchitecturalSum (.subfe rt ra rb oe rc) rt oe rc (~~~a) b s.ca s
      ∧ ArchitecturalSum (.subfme rt ra oe rc) rt oe rc (~~~a) (BitVec.allOnes 64) s.ca s
      ∧ ArchitecturalSum (.subfze rt ra oe rc) rt oe rc (~~~a) 0#64 s.ca s
      ∧ ArchitecturalSum (.addic rt ra si) rt false false a (BitVec.signExtend 64 si) false s
      ∧ ArchitecturalSum (.addicRc rt ra si) rt false true a (BitVec.signExtend 64 si) false s
      ∧ ArchitecturalSum (.subfic rt ra si) rt false false (~~~a) (BitVec.signExtend 64 si) true s

/-- R341, R342, R375 to R378: result, CR0, OV and SO of add, subf, neg, mulld, mullw and the divisions with OE = 1 under
`architectural`; that CR0 takes SO after the update is PRESUMED (assumption log 14). -/
def Obligations.ArchitecturalOverflowBits : Prop :=
  ∀ (rt ra rb : Reg) (rc : Bool) (s : State) (a b : Word), s.readGpr ra = some a → s.readGpr rb = some b →
    ArchitecturalOverflow (.add rt ra rb true rc) rt rc 64 (a.toInt + b.toInt) s
      ∧ ArchitecturalOverflow (.subf rt ra rb true rc) rt rc 64 (b.toInt - a.toInt) s
      ∧ ArchitecturalOverflow (.neg rt ra true rc) rt rc 64 (-a.toInt) s
      ∧ ArchitecturalOverflow (.mulld rt ra rb true rc) rt rc 64 (a.toInt * b.toInt) s
      ∧ ArchitecturalOverflow (.mullw rt ra rb true rc) rt rc 32 (signedLow a * signedLow b) s
      ∧ ArchitecturalDivide (.divd rt ra rb true rc) rt rc (NoQuotient a b)
          (FullQuotientAfter rt rc (BitVec.ofInt 64 (a.toInt.tdiv b.toInt)) s) s
      ∧ ArchitecturalDivide (.divdu rt ra rb true rc) rt rc (b = 0#64)
          (FullQuotientAfter rt rc (BitVec.ofNat 64 (a.toNat / b.toNat)) s) s
      ∧ ArchitecturalDivide (.divw rt ra rb true rc) rt rc (NoWordQuotient a b)
          (WordQuotientAfter rt rc (BitVec.ofInt 32 ((signedLow a).tdiv (signedLow b))) (s.drawn.draw 3) s) s
      ∧ ArchitecturalDivide (.divwu rt ra rb true rc) rt rc (unsignedLow b = 0)
          (WordQuotientAfter rt rc (BitVec.ofNat 32 (unsignedLow a / unsignedLow b)) (s.drawn.draw 3) s) s

/-- R341 under `havoc`: the CA-producing sums, the other OE forms, the divisions and the shift-algebraic instructions. How
SO and CR0 are drawn is the model's reading (assumption logs 13 and 14). -/
def Obligations.HavocDraws : Prop :=
  ∀ (rt ra rb : Reg) (oe rc : Bool) (si : BitVec 16) (s : State) (a b : Word), s.readGpr ra = some a →
    s.readGpr rb = some b →
    HavocWrites (.addc rt ra rb oe rc) rt true oe rc true (a + b) s
      ∧ HavocWrites (.adde rt ra rb oe rc) rt true oe rc true (a + b + caWord s) s
      ∧ HavocWrites (.addme rt ra oe rc) rt true oe rc true (a + caWord s + 0xFFFFFFFFFFFFFFFF#64) s
      ∧ HavocWrites (.addze rt ra oe rc) rt true oe rc true (a + caWord s) s
      ∧ HavocWrites (.subfc rt ra rb oe rc) rt true oe rc true (b - a) s
      ∧ HavocWrites (.subfe rt ra rb oe rc) rt true oe rc true (~~~a + b + caWord s) s
      ∧ HavocWrites (.subfme rt ra oe rc) rt true oe rc true (~~~a + caWord s + 0xFFFFFFFFFFFFFFFF#64) s
      ∧ HavocWrites (.subfze rt ra oe rc) rt true oe rc true (~~~a + caWord s) s
      ∧ HavocWrites (.addic rt ra si) rt true false false false (a + BitVec.signExtend 64 si) s
      ∧ HavocWrites (.addicRc rt ra si) rt true false true true (a + BitVec.signExtend 64 si) s
      ∧ HavocWrites (.subfic rt ra si) rt true false false false (BitVec.signExtend 64 si - a) s
      ∧ HavocWrites (.add rt ra rb oe rc) rt false oe rc false (a + b) s
      ∧ HavocWrites (.subf rt ra rb oe rc) rt false oe rc false (b - a) s
      ∧ HavocWrites (.neg rt ra oe rc) rt false oe rc false (-a) s
      ∧ HavocWrites (.mulld rt ra rb oe rc) rt false oe rc false (a * b) s
      ∧ HavocWrites (.mullw rt ra rb oe rc) rt false oe rc false (BitVec.ofInt 64 (signedLow a * signedLow b)) s
      ∧ HavocDivides (.divd rt ra rb oe rc) rt oe rc (NoQuotient a b) (NoQuotient a b)
          (FullQuotientAfter rt rc (BitVec.ofInt 64 (a.toInt.tdiv b.toInt)) s) s
      ∧ HavocDivides (.divdu rt ra rb oe rc) rt oe rc (b = 0#64) (b = 0#64)
          (FullQuotientAfter rt rc (BitVec.ofNat 64 (a.toNat / b.toNat)) s) s
      ∧ HavocDivides (.divw rt ra rb oe rc) rt oe rc (NoWordQuotient a b) True
          (WordQuotientAfter rt rc (BitVec.ofInt 32 ((signedLow a).tdiv (signedLow b)))
            ((afterOverflowDraws oe s.drawn).draw 3) s) s
      ∧ HavocDivides (.divwu rt ra rb oe rc) rt oe rc (unsignedLow b = 0) True
          (WordQuotientAfter rt rc (BitVec.ofNat 32 (unsignedLow a / unsignedLow b))
            ((afterOverflowDraws oe s.drawn).draw 3) s) s
      ∧ (∀ sh : BitVec 5, HavocWrites (.srawi ra rt sh rc) rt true false rc false
          ((BitVec.signExtend 64 (a.extractLsb' 0 32)).sshiftRight sh.toNat) s)
      ∧ (∀ sh : BitVec 6, HavocWrites (.sradi ra rt sh rc) rt true false rc false (a.sshiftRight sh.toNat) s)
      ∧ HavocWrites (.sraw ra rt rb rc) rt true false rc false
          ((BitVec.signExtend 64 (a.extractLsb' 0 32)).sshiftRight (b.toNat % 64)) s
      ∧ HavocWrites (.srad ra rt rb rc) rt true false rc false (a.sshiftRight (b.toNat % 128)) s

/-- R369 to R374: the multiplies. mullw's exact product fits 64 bits; mulhw and mulhwu draw the high half. -/
def Obligations.Multiplies : Prop :=
  Arith2 .mulld (fun a b => (BitVec.ofInt 128 (a.toInt * b.toInt)).extractLsb' 0 64)
    ∧ Arith2 .mullw (fun a b => BitVec.ofInt 64 (signedLow a * signedLow b))
    ∧ (∀ a b : Word, (BitVec.ofInt 64 (signedLow a * signedLow b)).toInt = signedLow a * signedLow b)
    ∧ MulHigh .mulhd (fun a b => (BitVec.ofInt 128 (a.toInt * b.toInt)).extractLsb' 64 64)
    ∧ MulHigh .mulhdu (fun a b => BitVec.ofNat 64 (a.toNat * b.toNat / 2 ^ 64))
    ∧ MulHighWord .mulhw (fun a b => (BitVec.ofInt 64 (signedLow a * signedLow b)).extractLsb' 32 32)
    ∧ MulHighWord .mulhwu (fun a b => BitVec.ofNat 32 (unsignedLow a * unsignedLow b / 2 ^ 32))

/-- R342, R375 to R378: the divisions complete for every divisor; a zero divisor or an overflow gives a draw. -/
def Obligations.Divisions : Prop :=
  Divide .divd (fun a b => b = 0#64 ∨ (a = 0x8000000000000000#64 ∧ b = 0xFFFFFFFFFFFFFFFF#64))
      (fun a b => FullQuotient (BitVec.ofInt 64 (a.toInt.tdiv b.toInt)))
    ∧ Divide .divdu (fun _ b => b = 0#64) (fun a b => FullQuotient (BitVec.ofNat 64 (a.toNat / b.toNat)))
    ∧ Divide .divw
        (fun a b => signedLow b = 0 ∨ (signedLow a = -(2 ^ 31) ∧ signedLow b = -1))
        (fun a b => WordQuotient (BitVec.ofInt 32 ((signedLow a).tdiv (signedLow b))))
    ∧ Divide .divwu (fun _ b => unsignedLow b = 0)
        (fun a b => WordQuotient (BitVec.ofNat 32 (unsignedLow a / unsignedLow b)))

/-! ### Compare, logical, extend, count -/

/-- 44_compare_logical.md R400 to R404: cmp, cmpi, cmpl and cmpli. -/
def Obligations.Compares : Prop :=
  ∀ (bf : BitVec 3) (l : Bool) (ra rb : Reg) (imm : BitVec 16) (s : State) (a b : Word), s.readGpr ra = some a →
    (s.readGpr rb = some b →
      ComparesTo (.cmp bf l ra rb) bf (if l then a.toInt else signedLow a) (if l then b.toInt else signedLow b) s
        ∧ ComparesTo (.cmpl bf l ra rb) bf (if l then a.toNat else unsignedLow a)
            (if l then b.toNat else unsignedLow b) s)
      ∧ ComparesTo (.cmpi bf l ra imm) bf (if l then a.toInt else signedLow a) imm.toInt s
      ∧ ComparesTo (.cmpli bf l ra imm) bf (if l then a.toNat else unsignedLow a) imm.toNat s

/-- R405 to R411: nop, and the logical immediates; andi. and andis. always record. -/
def Obligations.LogicalImmediates : Prop :=
  (∀ s : State, exec .nop s = .next { s with pc := s.pc + 4#64 })
    ∧ LogicalImmediate .andiRc true (fun a ui => a &&& (0#48 ++ ui))
    ∧ LogicalImmediate .andisRc true (fun a ui => a &&& (0#32 ++ ui ++ 0#16))
    ∧ LogicalImmediate .ori false (fun a ui => a ||| (0#48 ++ ui))
    ∧ LogicalImmediate .oris false (fun a ui => a ||| (0#32 ++ ui ++ 0#16))
    ∧ LogicalImmediate .xori false (fun a ui => a ^^^ (0#48 ++ ui))
    ∧ LogicalImmediate .xoris false (fun a ui => a ^^^ (0#32 ++ ui ++ 0#16))

/-- R412 to R420: the logical register forms and mr. -/
def Obligations.LogicalRegisters : Prop :=
  Logical2 .and (fun a b => a &&& b) ∧ Logical2 .andc (fun a b => a &&& ~~~b) ∧ Logical2 .or (fun a b => a ||| b)
    ∧ Logical2 .orc (fun a b => a ||| ~~~b) ∧ Logical2 .xor (fun a b => a ^^^ b)
    ∧ Logical2 .nand (fun a b => ~~~(a &&& b)) ∧ Logical2 .nor (fun a b => ~~~(a ||| b))
    ∧ Logical2 .eqv (fun a b => ~~~(a ^^^ b)) ∧ Logical1 .mr (fun a => a)

/-- R421 to R425: extsb, extsh and extsw; cntlzw and cntlzd write the number n of leading zeros: every one of the top n
bits is 0, and the next bit, if there is one, is 1. -/
def Obligations.ExtendAndCount : Prop :=
  Logical1 .extsb (fun a => BitVec.signExtend 64 (a.extractLsb' 0 8))
    ∧ Logical1 .extsh (fun a => BitVec.signExtend 64 (a.extractLsb' 0 16))
    ∧ Logical1 .extsw (fun a => BitVec.signExtend 64 (a.extractLsb' 0 32))
    ∧ ∀ (rs ra : Reg) (rc : Bool) (s : State) (a : Word), s.readGpr rs = some a →
    (∃ n, n ≤ 32 ∧ (∀ k, k < n → a.getLsbD (31 - k) = false) ∧ (n < 32 → a.getLsbD (31 - n) = true)
        ∧ WritesResult (.cntlzw rs ra rc) ra rc (BitVec.ofNat 64 n) s)
      ∧ (∃ n, n ≤ 64 ∧ (∀ k, k < n → a.getLsbD (63 - k) = false) ∧ (n < 64 → a.getLsbD (63 - n) = true)
        ∧ WritesResult (.cntlzd rs ra rc) ra rc (BitVec.ofNat 64 n) s)

/-! ### Rotate and shift -/

/-- 45_rotate_shift.md R451 to R453: rlwinm, rlwnm and rlwimi. -/
def Obligations.WordRotates : Prop :=
  ∀ sh mb me : BitVec 5,
    Rotate1 (fun rs ra rc => .rlwinm rs ra sh mb me rc)
        (fun a => rotl32 a sh.toNat &&& rotateMask (mb.toNat + 32) (me.toNat + 32))
      ∧ Rotate2 (fun rs ra rb rc => .rlwnm rs ra rb mb me rc) (fun _ rb => rb)
        (fun a b => rotl32 a (b.toNat % 32) &&& rotateMask (mb.toNat + 32) (me.toNat + 32))
      ∧ Rotate2 (fun rs ra _ rc => .rlwimi rs ra sh mb me rc) (fun ra _ => ra)
        (fun a old => (rotl32 a sh.toNat &&& rotateMask (mb.toNat + 32) (me.toNat + 32))
          ||| (old &&& ~~~rotateMask (mb.toNat + 32) (me.toNat + 32)))

/-- R454 to R458: rldicl, rldicr, rldic, rldimi and rldcl. -/
def Obligations.DoublewordRotates : Prop :=
  ∀ sh mbe : BitVec 6,
    Rotate1 (fun rs ra rc => .rldicl rs ra sh mbe rc) (fun a => rotl64 a sh.toNat &&& rotateMask mbe.toNat 63)
      ∧ Rotate1 (fun rs ra rc => .rldicr rs ra sh mbe rc) (fun a => rotl64 a sh.toNat &&& rotateMask 0 mbe.toNat)
      ∧ Rotate1 (fun rs ra rc => .rldic rs ra sh mbe rc)
        (fun a => rotl64 a sh.toNat &&& rotateMask mbe.toNat (63 - sh.toNat))
      ∧ Rotate2 (fun rs ra _ rc => .rldimi rs ra sh mbe rc) (fun ra _ => ra)
        (fun a old => (rotl64 a sh.toNat &&& rotateMask mbe.toNat (63 - sh.toNat))
          ||| (old &&& ~~~rotateMask mbe.toNat (63 - sh.toNat)))
      ∧ Rotate2 (fun rs ra rb rc => .rldcl rs ra rb mbe rc) (fun _ rb => rb)
        (fun a b => rotl64 a (b.toNat % 64) &&& rotateMask mbe.toNat 63)

/-- R459: rldcr takes its amount from the 6-bit split field (32 + the RB field number), the RB field number or
GPR[RB][5:0], by RLDCR_SHIFT; only the last needs GPR[RB]. -/
def Obligations.RldcrShiftAmount : Prop :=
  ∀ (rs ra rb : Reg) (me : BitVec 6) (rc : Bool) (s : State) (a : Word), s.readGpr rs = some a →
    (s.params.rldcrShift = .field6 →
      WritesResult (.rldcr rs ra rb me rc) ra rc (rotl64 a (32 + rb.toNat) &&& rotateMask 0 me.toNat) s)
      ∧ (s.params.rldcrShift = .field5 →
        WritesResult (.rldcr rs ra rb me rc) ra rc (rotl64 a rb.toNat &&& rotateMask 0 me.toNat) s)
      ∧ (∀ b, s.params.rldcrShift = .register → s.readGpr rb = some b →
        WritesResult (.rldcr rs ra rb me rc) ra rc (rotl64 a (b.toNat % 64) &&& rotateMask 0 me.toNat) s)

/-- R460, R461, R464, R465: slw and srw shift the low word, sld and srd the doubleword; a long shift gives 0. -/
def Obligations.LogicalShifts : Prop :=
  Logical2 .slw (fun a b => if b.toNat % 64 < 32 then 0#32 ++ (a.extractLsb' 0 32 <<< (b.toNat % 64)) else 0#64)
    ∧ Logical2 .srw (fun a b => if b.toNat % 64 < 32 then 0#32 ++ (a.extractLsb' 0 32 >>> (b.toNat % 64)) else 0#64)
    ∧ Logical2 .sld (fun a b => if b.toNat % 128 < 64 then a <<< (b.toNat % 128) else 0#64)
    ∧ Logical2 .srd (fun a b => if b.toNat % 128 < 64 then a >>> (b.toNat % 128) else 0#64)

/-- R450, R462, R463, R466, R467: sraw, srawi, srad and sradi, and their CA under `reference` and `architectural`. -/
def Obligations.AlgebraicShifts : Prop :=
  ∀ (rs ra rb : Reg) (rc : Bool) (s : State) (a b : Word), s.readGpr rs = some a →
    (s.readGpr rb = some b →
      ShiftsAlgebraic (.sraw rs ra rb rc) ra rc (signedLow a) (b.toNat % 64)
          (∃ k, k < b.toNat % 64 ∧ k < 32 ∧ a.getLsbD k = true) s
        ∧ ShiftsAlgebraic (.srad rs ra rb rc) ra rc a.toInt (b.toNat % 128)
          (∃ k, k < b.toNat % 128 ∧ a.getLsbD k = true) s)
      ∧ (∀ sh : BitVec 5, ShiftsAlgebraic (.srawi rs ra sh rc) ra rc (signedLow a) sh.toNat
          (∃ k, k < sh.toNat ∧ a.getLsbD k = true) s)
      ∧ (∀ sh : BitVec 6, ShiftsAlgebraic (.sradi rs ra sh rc) ra rc a.toInt sh.toNat
          (∃ k, k < sh.toNat ∧ a.getLsbD k = true) s)

/-! ### System -/

/-- 46_system.md R502, R529: mfspr of LR, CTR, XER and the time base, and mftb. -/
def Obligations.MovesFromSpecialRegisters : Prop :=
  ∀ (rt : Reg) (s : State),
    (∀ v, s.lr = some v → Completes (.mfspr rt 8#10) s fun t => t.readGpr rt = some v ∧ OnlyGprs [rt] s t)
      ∧ (s.lr = none → exec (.mfspr rt 8#10) s = .fault .unsetRegister)
      ∧ (∀ v, s.ctr = some v → Completes (.mfspr rt 9#10) s fun t => t.readGpr rt = some v ∧ OnlyGprs [rt] s t)
      ∧ (s.ctr = none → exec (.mfspr rt 9#10) s = .fault .unsetRegister)
      ∧ (Completes (.mfspr rt 1#10) s fun t => ∃ v : Word, t.readGpr rt = some v ∧ v.getLsbD 31 = s.so
          ∧ v.getLsbD 30 = s.ov ∧ v.getLsbD 29 = s.ca
          ∧ (∀ k, k < 29 ∨ 31 < k → v.getLsbD k = (s.draw 64).getLsbD k) ∧ OnlyGprs [rt] s t)
      ∧ (∀ n, n = 268#10 ∨ n = 269#10 →
          (Completes (.mfspr rt n) s fun t => t.readGpr rt = some (s.draw 64) ∧ OnlyGprs [rt] s t)
          ∧ (Completes (.mftb rt n) s fun t => t.readGpr rt = some (s.draw 64) ∧ OnlyGprs [rt] s t))

/-- R503: mtspr of XER overwrites SO, OV and CA, of LR and of CTR the whole register. -/
def Obligations.MovesToSpecialRegisters : Prop :=
  ∀ (rs : Reg) (s : State) (v : Word), s.readGpr rs = some v →
    exec (.mtspr rs 1#10) s
        = .next { s with so := v.getLsbD 31, ov := v.getLsbD 30, ca := v.getLsbD 29, pc := s.pc + 4#64 }
      ∧ exec (.mtspr rs 8#10) s = .next { s with lr := some v, pc := s.pc + 4#64 }
      ∧ exec (.mtspr rs 9#10) s = .next { s with ctr := some v, pc := s.pc + 4#64 }

/-- R500, R502, R503, R529 and 40_branch.md R214: every other SPR number, and bcctr and bcctrl with BO2 = 0, are
refused, before any register is read (60_exceptions.md R602). -/
def Obligations.OperandsRefused : Prop :=
  ∀ (r : Reg) (n : BitVec 10) (bo bi : BitVec 5) (bh : BitVec 2) (s : State),
    (n ∉ [1#10, 8#10, 9#10, 268#10, 269#10] → exec (.mfspr r n) s = .refused (.unmodelledSPR n))
      ∧ (n ∉ [1#10, 8#10, 9#10] → exec (.mtspr r n) s = .refused (.unmodelledSPR n))
      ∧ (n ∉ [268#10, 269#10] → exec (.mftb r n) s = .refused (.unmodelledSPR n))
      ∧ (bo.getLsbD 2 = false → exec (.bcctr bo bi bh) s = .refused .bcctrDecrement
          ∧ exec (.bcctrl bo bi bh) s = .refused .bcctrDecrement)

/-- R506, R507, R510 to R517: sync, eieio, isync, dcbt, dcbtst, dcbst, dcbf and icbi move PC and change nothing. -/
def Obligations.NoOpIntrinsics : Prop :=
  ∀ (i : Instr) (s : State),
    (i = .eieio ∨ i = .isync ∨ (∃ l, i = .sync l) ∨ (∃ ra rb, i = .dcbt ra rb) ∨ (∃ ra rb, i = .dcbtst ra rb)
      ∨ (∃ ra rb, i = .dcbst ra rb) ∨ (∃ ra rb, i = .dcbf ra rb) ∨ (∃ ra rb, i = .icbi ra rb)) →
    exec i s = .next { s with pc := s.pc + 4#64 }

/-- R506, R507, R518 to R528, R538 to R545: the refused intrinsics, each with its identifier, whatever is unset. -/
def Obligations.RefusedIntrinsics : Prop :=
  ∀ (a b c : Reg) (s : State),
    exec (.dcbz a b) s = .refused (.unmodelled 8) ∧ exec (.tlbie a) s = .refused (.unmodelled 9)
      ∧ exec (.tlbiel a) s = .refused (.unmodelled 10) ∧ exec .tlbia s = .refused (.unmodelled 11)
      ∧ exec .tlbsync s = .refused (.unmodelled 12) ∧ exec (.slbmte a b) s = .refused (.unmodelled 13)
      ∧ exec (.slbie a) s = .refused (.unmodelled 14) ∧ exec .slbia s = .refused (.unmodelled 15)
      ∧ exec (.slbmfev a b) s = .refused (.unmodelled 16) ∧ exec (.slbmfee a b) s = .refused (.unmodelled 17)
      ∧ exec (.lwarx a b c) s = .refused (.unmodelled 18) ∧ exec (.ldarx a b c) s = .refused (.unmodelled 19)
      ∧ exec (.stwcx a b c) s = .refused (.unmodelled 20) ∧ exec (.stdcx a b c) s = .refused (.unmodelled 21)
      ∧ exec (.mfmsr a) s = .refused (.unmodelled 22) ∧ exec (.mtmsr a) s = .refused (.unmodelled 23)
      ∧ exec (.mtmsrd a) s = .refused (.unmodelled 24) ∧ exec .rfid s = .refused (.unmodelled 25)
      ∧ exec .hrfid s = .refused (.unmodelled 26)

/-- R530, R605, 30_encoding.md R131: sc ends in `Fault(SystemCall(LEV))`, a reserved word in
`Fault(IllegalInstruction(W))`, and a passthrough word is refused. -/
def Obligations.TerminalInstructions : Prop :=
  ∀ (lev : BitVec 7) (w : InsnWord) (s : State),
    exec (.sc lev) s = .fault (.systemCall lev) ∧ exec (.reserved w) s = .fault (.illegalInstruction w)
      ∧ exec (.passthrough w) s = .refused .passthrough

/-- R531 to R535: tw, twi, td and tdi complete when the condition does not hold and trap with CIA when it does. -/
def Obligations.TrapInstructions : Prop :=
  ∀ (toBits : BitVec 5) (ra rb : Reg) (si : BitVec 16) (s : State) (a b : Word), s.readGpr ra = some a →
    (s.readGpr rb = some b →
      TrapsOn (.tw toBits ra rb)
          (TrapHolds toBits (signedLow a) (signedLow b) (unsignedLow a) (unsignedLow b)) s
        ∧ TrapsOn (.td toBits ra rb) (TrapHolds toBits a.toInt b.toInt a.toNat b.toNat) s)
      ∧ TrapsOn (.twi toBits ra si)
          (TrapHolds toBits (signedLow a) si.toInt (unsignedLow a)
            (unsignedLow (BitVec.signExtend 64 si))) s
      ∧ TrapsOn (.tdi toBits ra si)
          (TrapHolds toBits a.toInt si.toInt a.toNat (BitVec.signExtend 64 si).toNat) s
end

