-- ==== Sys2Proof/Laws/Decoder.lean ====
section
/-! SUPPORT. The decoder block's outputs: fields stay in their declared width and read no other bit (30_encoding.md
R101), and hint bits reach no branch record (40_branch.md R213). -/

set_option Elab.async false

namespace Sys2Proof.Machine

/-- The value that runs of bits make lies below 2 to the sum of their widths. -/
theorem foldl_runs_lt (w : InsnWord) (parts : List (Nat × Nat)) (v n : Nat) (h : v < 2 ^ n) :
    parts.foldl (fun v p => v * 2 ^ (p.1 - p.2 + 1) + (w.extractLsb' p.2 (p.1 - p.2 + 1)).toNat) v
      < 2 ^ parts.foldl (fun n p => n + (p.1 - p.2 + 1)) n := by
  induction parts generalizing v n with
  | nil => simpa using h
  | cons p rest ih =>
    simp only [List.foldl_cons]
    apply ih
    have hx := (w.extractLsb' p.2 (p.1 - p.2 + 1)).isLt
    calc v * 2 ^ (p.1 - p.2 + 1) + (w.extractLsb' p.2 (p.1 - p.2 + 1)).toNat
        < v * 2 ^ (p.1 - p.2 + 1) + 2 ^ (p.1 - p.2 + 1) := by omega
      _ = (v + 1) * 2 ^ (p.1 - p.2 + 1) := by ring
      _ ≤ 2 ^ n * 2 ^ (p.1 - p.2 + 1) := Nat.mul_le_mul_right _ h
      _ = 2 ^ (n + (p.1 - p.2 + 1)) := (pow_add 2 n _).symm

/-- A field's value is masked to the field's declared width, in every word (R101). -/
theorem FieldSlot.value_lt (f : FieldSlot) (w : InsnWord) : f.value w < 2 ^ f.width := by
  have h := foldl_runs_lt w f.parts 0 0 (by simp)
  unfold FieldSlot.value FieldSlot.width
  rw [pow_add]
  exact Nat.mul_lt_mul_of_pos_right h (by positivity)

/-- A field reads no bit outside its declared runs (R101). -/
theorem FieldSlot.value_congr (f : FieldSlot) (w x : InsnWord)
    (h : ∀ p ∈ f.parts, ∀ k, p.2 ≤ k → k ≤ p.2 + (p.1 - p.2) → w.getLsbD k = x.getLsbD k) : f.value w = f.value x := by
  have hp : ∀ p ∈ f.parts, w.extractLsb' p.2 (p.1 - p.2 + 1) = x.extractLsb' p.2 (p.1 - p.2 + 1) := by
    intro p hp
    apply BitVec.eq_of_getLsbD_eq
    intro i hi
    rw [BitVec.getLsbD_extractLsb', BitVec.getLsbD_extractLsb', h p hp _ (by omega) (by omega)]
  unfold FieldSlot.value
  congr 1
  exact List.foldl_ext _ _ 0 fun v p hm => by rw [hp p hm]

/-- Every slot of every form lies inside the 32-bit word. -/
theorem formFields_inside (f : Form) : ∀ x ∈ formFields f, ∀ p ∈ x.parts, p.2 ≤ p.1 ∧ p.1 < 32 := by
  cases f <;> decide

/-- The fields of a decoded instruction are those of its form, whatever the instruction (R101). -/
theorem rawFields_form {i : Instr} {f : Form} (h : form i = some f) (w : InsnWord) :
    rawFields i w = extractFields f w := by
  simp [rawFields, h]

/-- Two BO fields that agree in BO0, in BO2 and in the bits their tests use give one branch record: BO4 and the untested
BO1 and BO3 reach no output of the record (40_branch.md R213). -/
theorem conditionalInfo_hints (kind : BranchKind) (target : Option Word) (bo bo' bi : BitVec 5) (link : Bool)
    (h0 : boBit bo 0 = boBit bo' 0) (h2 : boBit bo 2 = boBit bo' 2)
    (h1 : boBit bo 0 = false → boBit bo 1 = boBit bo' 1) (h3 : boBit bo 2 = false → boBit bo 3 = boBit bo' 3) :
    conditionalInfo kind target bo bi link = conditionalInfo kind target bo' bi link := by
  have hz : (ctrDecrements bo && boBit bo 3) = (ctrDecrements bo' && boBit bo' 3) := by
    unfold ctrDecrements
    cases hb : boBit bo 2
    · rw [← h2, hb, h3 hb]
    · rw [← h2, hb]; rfl
  have hv : (!boBit bo 0 && boBit bo 1) = (!boBit bo' 0 && boBit bo' 1) := by
    cases hb : boBit bo 0
    · rw [← h0, hb, h1 hb]
    · rw [← h0, hb]; rfl
  unfold conditionalInfo
  rw [hz, hv]
  simp [branchAlways, ctrDecrements, h0, h2]

end Sys2Proof.Machine
end

