-- ==== Sys2Proof/Laws/Memory.lean ====
section
/-! SUPPORT. The laws of memory: a read after a write, the canonical form kept, multi-byte reads and writes byte by byte,
the written-bytes set, and the checks of an access. -/

set_option Elab.async false

namespace Sys2Proof.Machine

/-! ### One byte -/

theorem Memory.read_filter (m : Memory) (x y : Nat) (h : y ≠ x) :
    Memory.read (m.filter fun c => decide (c.1 ≠ x)) y = m.read y := by
  induction m with
  | nil => rfl
  | cons c rest ih =>
    obtain ⟨a, b⟩ := c
    by_cases hax : a = x
    · subst hax
      simp only [ne_eq, List.filter_cons, not_true_eq_false, decide_false, Bool.false_eq_true, if_false, Memory.read,
        h.symm]
      simpa using ih
    · simp only [List.filter_cons, ne_eq, hax, not_false_eq_true, decide_true, if_true, Memory.read]
      split
      · rfl
      · simpa using ih

theorem Memory.read_filter_self (m : Memory) (x : Nat) :
    Memory.read (m.filter fun c => decide (c.1 ≠ x)) x = unlistedByte := by
  induction m with
  | nil => rfl
  | cons c rest ih =>
    obtain ⟨a, b⟩ := c
    by_cases hax : a = x
    · subst hax
      simpa [List.filter_cons] using ih
    · simp only [List.filter_cons, ne_eq, hax, not_false_eq_true, decide_true, if_true, Memory.read, if_false]
      simpa using ih

theorem Memory.read_place (m : Memory) (x y : Nat) (v : Byte) (h : ∀ c ∈ m, c.1 ≠ x) :
    (m.place x v).read y = if y = x then v else m.read y := by
  induction m with
  | nil => simp [Memory.place, Memory.read, eq_comm]
  | cons c rest ih =>
    obtain ⟨a, b⟩ := c
    have hax : a ≠ x := h (a, b) (by simp)
    have ih' := ih fun c hc => h c (by simp [hc])
    simp only [Memory.place]
    split
    · simp only [Memory.read, eq_comm]
    · simp only [Memory.read, ih']
      by_cases hay : a = y
      · subst hay; simp [hax]
      · simp [hay]

/-- A read after a write: the byte written at its own address, and every other byte as before. -/
theorem Memory.read_write (m : Memory) (x y : Nat) (v : Byte) :
    (m.write x v).read y = if y = x then v else m.read y := by
  unfold Memory.write
  split
  · rename_i hv
    by_cases h : y = x
    · subst h; simp only [Memory.read_filter_self, if_true, hv]
    · simp only [Memory.read_filter m x y h, h, if_false]
  · rw [Memory.read_place _ _ _ _ (by simp)]
    by_cases h : y = x
    · simp [h]
    · simp only [h, if_false]; exact Memory.read_filter m x y h

/-! ### The canonical form -/

theorem Memory.wf_iff (m : Memory) :
    m.wf = true ↔ m.Pairwise (fun p q => p.1 < q.1) ∧ ∀ c ∈ m, c.1 < 2 ^ 64 ∧ c.2 ≠ unlistedByte := by
  simp [Memory.wf]

theorem Memory.mem_place (m : Memory) (x : Nat) (v : Byte) (c : Host.Cell) :
    c ∈ m.place x v ↔ c = (x, v) ∨ c ∈ m := by
  induction m with
  | nil => simp [Memory.place]
  | cons d rest ih =>
    obtain ⟨a, b⟩ := d
    simp only [Memory.place]
    split
    · simp
    · simp [ih]; tauto

theorem Memory.place_pairwise (m : Memory) (x : Nat) (v : Byte) (h : m.Pairwise fun p q => p.1 < q.1)
    (hx : ∀ c ∈ m, c.1 ≠ x) : (m.place x v).Pairwise fun p q => p.1 < q.1 := by
  induction m with
  | nil => simp [Memory.place]
  | cons d rest ih =>
    obtain ⟨a, b⟩ := d
    rw [List.pairwise_cons] at h
    have hax : a ≠ x := hx (a, b) (by simp)
    simp only [Memory.place]
    split
    · rename_i hlt
      rw [List.pairwise_cons]
      refine ⟨fun c hc => ?_, List.pairwise_cons.2 h⟩
      rcases List.mem_cons.1 hc with rfl | hc
      · exact hlt
      · exact Nat.lt_trans hlt (h.1 c hc)
    · rename_i hnlt
      rw [List.pairwise_cons]
      refine ⟨fun c hc => ?_, ih h.2 fun c hc => hx c (by simp [hc])⟩
      rcases (Memory.mem_place rest x v c).1 hc with rfl | hc
      · simp; omega
      · exact h.1 c hc

/-- A write inside the 64-bit space keeps the canonical form. -/
theorem Memory.write_wf (m : Memory) (x : Nat) (v : Byte) (h : m.wf = true) (hx : x < 2 ^ 64) :
    (m.write x v).wf = true := by
  rw [Memory.wf_iff] at h ⊢
  have hf : (m.filter fun c => decide (c.1 ≠ x)).Pairwise fun p q => p.1 < q.1 := h.1.filter _
  unfold Memory.write
  split
  · exact ⟨hf, fun c hc => h.2 c (List.mem_of_mem_filter hc)⟩
  · rename_i hv
    refine ⟨Memory.place_pairwise _ _ _ hf (by simp), fun c hc => ?_⟩
    rcases (Memory.mem_place _ _ _ _).1 hc with rfl | hc
    · exact ⟨hx, hv⟩
    · exact h.2 c (List.mem_of_mem_filter hc)

theorem writeBytes_wf (m : Memory) (a : Word) (bs : List Byte) (h : m.wf = true) : (writeBytes m a bs).wf = true := by
  induction bs generalizing m a with
  | nil => exact h
  | cons b bs ih => exact ih _ _ (Memory.write_wf m _ b h a.isLt)

/-- A store of any width keeps the canonical form. -/
theorem memWrite_wf (m : Memory) (a : Word) (n : Nat) (v : BitVec (8 * n)) (h : m.wf = true) :
    (memWrite m a n v).wf = true := writeBytes_wf _ _ _ h

theorem Memory.nil_wf : Memory.wf [] = true := rfl

/-! ### Several bytes -/

/-- The address k bytes above `a`, one step at a time. -/
theorem addr_succ (a : Word) (k : Nat) : a + 1#64 + BitVec.ofNat 64 k = a + BitVec.ofNat 64 (k + 1) := by
  rw [BitVec.add_assoc, ← BitVec.ofNat_add, Nat.add_comm 1 k]

theorem addr_inj (a : Word) (j k : Nat) (hj : j < 2 ^ 64) (hk : k < 2 ^ 64)
    (h : (a + BitVec.ofNat 64 j).toNat = (a + BitVec.ofNat 64 k).toNat) : j = k := by
  have h1 := BitVec.eq_of_toNat_eq h
  have h2 : BitVec.ofNat 64 j = BitVec.ofNat 64 k := by
    have := congrArg (fun z => z - a) h1
    simpa [BitVec.add_comm a] using this
  have h3 := congrArg BitVec.toNat h2
  rwa [BitVec.toNat_ofNat, BitVec.toNat_ofNat, Nat.mod_eq_of_lt hj, Nat.mod_eq_of_lt hk] at h3

/-- A byte outside the bytes written reads as before. -/
theorem read_writeBytes_other (m : Memory) (a : Word) (bs : List Byte) (y : Nat)
    (h : ∀ k, k < bs.length → y ≠ (a + BitVec.ofNat 64 k).toNat) : (writeBytes m a bs).read y = m.read y := by
  induction bs generalizing m a with
  | nil => rfl
  | cons b bs ih =>
    have h0 : y ≠ a.toNat := by simpa using h 0 (by simp)
    simp only [writeBytes]
    rw [ih, Memory.read_write, if_neg h0]
    intro k hk
    rw [addr_succ]
    exact h (k + 1) (by simpa using hk)

/-- Byte k of the bytes written reads as it was written. -/
theorem read_writeBytes_at (m : Memory) (a : Word) (bs : List Byte) (k : Nat) (hk : k < bs.length)
    (hl : bs.length ≤ 2 ^ 64) : (writeBytes m a bs).read (a + BitVec.ofNat 64 k).toNat = bs[k] := by
  induction bs generalizing m a k with
  | nil => simp at hk
  | cons b bs ih =>
    simp only [List.length_cons] at hl hk
    cases k with
    | zero =>
      simp only [writeBytes, List.getElem_cons_zero]
      rw [read_writeBytes_other, Memory.read_write]
      · simp
      · intro j hj h
        rw [addr_succ] at h
        have := addr_inj a 0 (j + 1) (by omega) (by omega) h
        omega
    | succ k =>
      simp only [writeBytes, List.getElem_cons_succ]
      rw [← addr_succ a k]
      exact ih _ _ k (by omega) (by omega)

@[simp] theorem bytesBE_length (n : Nat) (v : BitVec (8 * n)) : (bytesBE n v).length = n := by simp [bytesBE]

theorem bytesBE_getElem (n : Nat) (v : BitVec (8 * n)) (k : Nat) (h : k < (bytesBE n v).length) :
    (bytesBE n v)[k] = v.extractLsb' (8 * (n - k) - 8) 8 := by simp [bytesBE]

@[simp] theorem readBytes_length (m : Memory) (a : Word) (n : Nat) : (readBytes m a n).length = n := by
  induction n generalizing a with
  | zero => rfl
  | succ n ih => simp [readBytes, ih]

theorem readBytes_getElem (m : Memory) (a : Word) (n k : Nat) (h : k < (readBytes m a n).length) :
    (readBytes m a n)[k] = m.read (a + BitVec.ofNat 64 k).toNat := by
  induction n generalizing a k with
  | zero => simp at h
  | succ n ih =>
    cases k with
    | zero => simp [readBytes]
    | succ k =>
      simp only [readBytes, List.getElem_cons_succ]
      rw [ih, addr_succ]

/-- Memories that agree on the n bytes at `a` read the same there. -/
theorem readBytes_congr (m p : Memory) (a : Word) (n : Nat)
    (h : ∀ k, k < n → m.read (a + BitVec.ofNat 64 k).toNat = p.read (a + BitVec.ofNat 64 k).toNat) :
    readBytes m a n = readBytes p a n := by
  apply List.ext_getElem (by simp)
  intro k h1 h2
  rw [readBytes_getElem, readBytes_getElem]
  exact h k (by simpa using h1)

/-! ### The value of a list of bytes -/

theorem beValue_append (bs : List Byte) (b : Byte) : beValue (bs ++ [b]) = beValue bs * 256 + b.toNat := by
  simp [beValue]

theorem beValue_lt (bs : List Byte) : beValue bs < 256 ^ bs.length := by
  induction bs using List.reverseRecOn with
  | nil => simp [beValue]
  | append_singleton bs b ih =>
    rw [beValue_append, List.length_append, List.length_singleton, Nat.pow_succ]
    have := b.isLt
    omega

/-- Byte k of a list, counted from the most significant, as a digit of the value. -/
theorem beValue_digit (bs : List Byte) (k : Nat) (h : k < bs.length) :
    beValue bs / 256 ^ (bs.length - 1 - k) % 256 = bs[k].toNat := by
  induction bs using List.reverseRecOn generalizing k with
  | nil => simp at h
  | append_singleton bs b ih =>
    rw [beValue_append]
    simp only [List.length_append, List.length_singleton, Nat.add_sub_cancel] at h ⊢
    have hb := b.isLt
    by_cases hk : k = bs.length
    · subst hk; simp; omega
    · have hk' : k < bs.length := by omega
      have e : bs.length - k = (bs.length - 1 - k) + 1 := by omega
      rw [e, Nat.pow_succ, Nat.mul_comm (256 ^ _), ← Nat.div_div_eq_div_mul]
      have : (beValue bs * 256 + b.toNat) / 256 = beValue bs := by omega
      rw [this, ih k hk', List.getElem_append_left hk']

/-- The value whose bytes are listed: each byte of the bit vector. -/
theorem ofNat_beValue_byte (n : Nat) (bs : List Byte) (hn : bs.length = n) (k : Nat) (hk : k < n) :
    (BitVec.ofNat (8 * n) (beValue bs)).extractLsb' (8 * (n - k) - 8) 8 = bs[k] := by
  subst hn
  apply BitVec.eq_of_toNat_eq
  have hlt := beValue_lt bs
  have e : (256 : Nat) ^ bs.length = 2 ^ (8 * bs.length) := by
    rw [show (256 : Nat) = 2 ^ 8 by norm_num, ← Nat.pow_mul]
  have e2 : (256 : Nat) ^ (bs.length - 1 - k) = 2 ^ (8 * (bs.length - k) - 8) := by
    rw [show (256 : Nat) = 2 ^ 8 by norm_num, ← Nat.pow_mul]; congr 1; omega
  rw [e] at hlt
  rw [BitVec.extractLsb'_toNat, BitVec.toNat_ofNat, Nat.mod_eq_of_lt hlt, Nat.shiftRight_eq_div_pow, ← e2]
  exact beValue_digit bs k hk

/-! ### The written-bytes set -/

theorem mem_insertAddr (ws : List Nat) (x a : Nat) : a ∈ insertAddr ws x ↔ a ∈ ws ∨ a = x := by
  induction ws with
  | nil => simp [insertAddr]
  | cons w rest ih =>
    simp only [insertAddr]
    split
    · simp; tauto
    · split
      · rename_i h; subst h; simp; tauto
      · simp [ih]; tauto

theorem insertAddr_pairwise (ws : List Nat) (x : Nat) (h : ws.Pairwise (· < ·)) :
    (insertAddr ws x).Pairwise (· < ·) := by
  induction ws with
  | nil => simp [insertAddr]
  | cons w rest ih =>
    rw [List.pairwise_cons] at h
    simp only [insertAddr]
    split
    · rename_i hlt
      rw [List.pairwise_cons]
      refine ⟨fun c hc => ?_, List.pairwise_cons.2 h⟩
      rcases List.mem_cons.1 hc with rfl | hc
      · exact hlt
      · exact Nat.lt_trans hlt (h.1 c hc)
    · split
      · exact List.pairwise_cons.2 h
      · rw [List.pairwise_cons]
        refine ⟨fun c hc => ?_, ih h.2⟩
        rcases (mem_insertAddr rest x c).1 hc with hc | rfl
        · exact h.1 c hc
        · omega

/-- A store marks exactly its own bytes. -/
theorem mem_markWritten (ws : List Nat) (ea : Word) (n a : Nat) :
    a ∈ markWritten ws ea n ↔ a ∈ ws ∨ ∃ k, k < n ∧ a = (ea + BitVec.ofNat 64 k).toNat := by
  induction n generalizing ws ea with
  | zero => simp [markWritten]
  | succ n ih =>
    simp only [markWritten, ih, mem_insertAddr]
    constructor
    · rintro ((h | h) | ⟨k, hk, h⟩)
      · exact .inl h
      · exact .inr ⟨0, by omega, by simpa using h⟩
      · exact .inr ⟨k + 1, by omega, by rw [h, addr_succ]⟩
    · rintro (h | ⟨k, hk, h⟩)
      · exact .inl (.inl h)
      · cases k with
        | zero => exact .inl (.inr (by simpa using h))
        | succ k => exact .inr ⟨k, by omega, by rw [h, addr_succ]⟩

theorem markWritten_pairwise (ws : List Nat) (ea : Word) (n : Nat) (h : ws.Pairwise (· < ·)) :
    (markWritten ws ea n).Pairwise (· < ·) := by
  induction n generalizing ws ea with
  | zero => exact h
  | succ n ih => exact ih _ _ (insertAddr_pairwise ws _ h)

/-- Whether a fetch of n bytes meets a written byte. -/
theorem anyWritten_iff (ws : List Nat) (a : Word) (n : Nat) :
    anyWritten ws a n = true ↔ ∃ k, k < n ∧ (a + BitVec.ofNat 64 k).toNat ∈ ws := by
  induction n generalizing a with
  | zero => simp [anyWritten]
  | succ n ih =>
    simp only [anyWritten, Bool.or_eq_true, List.contains_iff_mem, ih]
    constructor
    · rintro (h | ⟨k, hk, h⟩)
      · exact ⟨0, by omega, by simpa using h⟩
      · exact ⟨k + 1, by omega, by rw [← addr_succ]; exact h⟩
    · rintro ⟨k, hk, h⟩
      cases k with
      | zero => exact .inl (by simpa using h)
      | succ k => exact .inr ⟨k, by omega, by rw [addr_succ]; exact h⟩

/-! ### The checks every access makes -/

@[simp] theorem aligned_iff (a : Word) (n : Nat) : aligned a n = true ↔ a.toNat % n = 0 := by simp [aligned]

/-- An instruction goes on with an operand that was read, and faults on an unset one. -/
@[simp] theorem withOperand_some {α : Type} (v : α) (k : α → Result) : withOperand (some v) k = k v := rfl
@[simp] theorem withOperand_none {α : Type} (k : α → Result) : withOperand none k = .fault .unsetRegister := rfl

/-- If an instruction that reads an operand answers a next state, the operand was set. -/
theorem withOperand_next {α : Type} {o : Option α} {k : α → Result} {t : State} (h : withOperand o k = .next t) :
    ∃ v, o = some v ∧ k v = .next t := by
  cases o with
  | some v => exact ⟨v, rfl, h⟩
  | none => cases h

/-- If an instruction that reads an operand faults, the operand was unset or the rest faulted. -/
theorem withOperand_fault {α : Type} {o : Option α} {k : α → Result} {f : Fault} (h : withOperand o k = .fault f) :
    (o = none ∧ f = .unsetRegister) ∨ ∃ v, o = some v ∧ k v = .fault f := by
  cases o with
  | some v => exact .inr ⟨v, rfl, h⟩
  | none => cases h; exact .inl ⟨rfl, rfl⟩

/-- An access the machine makes goes on. -/
theorem withAccess_ok {kind : AccessKind} {ea : Word} {n : Nat} {s : State} {k : Result}
    (h : ea.toNat % n = 0 ∨ s.params.misalignedData = .allow) (ha : s.admits ea n kind = true) :
    withAccess kind ea n s k = k := by
  rcases h with h | h
  · simp [withAccess, (aligned_iff ea n).2 h, ha]
  · simp [withAccess, h, ha]

/-- A misaligned access under `fault`. -/
theorem withAccess_misaligned {kind : AccessKind} {ea : Word} {n : Nat} {s : State} {k : Result}
    (h : ea.toNat % n ≠ 0) (hp : s.params.misalignedData = .fault) :
    withAccess kind ea n s k = .fault (.misalignedData ea n) := by
  have : aligned ea n = false := by simpa [aligned] using h
  simp [withAccess, this, hp, raise]

/-- An access that is not admitted. -/
theorem withAccess_stuck {kind : AccessKind} {ea : Word} {n : Nat} {s : State} {k : Result}
    (h : ea.toNat % n = 0 ∨ s.params.misalignedData = .allow) (ha : s.admits ea n kind = false) :
    withAccess kind ea n s k = .fault (.stuck ea n kind) := by
  rcases h with h | h
  · simp [withAccess, (aligned_iff ea n).2 h, ha, raise]
  · simp [withAccess, h, ha, raise]

/-- If an access answers a next state, the rest answered it. -/
theorem withAccess_next {kind : AccessKind} {ea : Word} {n : Nat} {s t : State} {k : Result}
    (h : withAccess kind ea n s k = .next t) : k = .next t := by
  unfold withAccess at h
  split at h
  · cases h
  · split at h
    · cases h
    · exact h

/-- The two stops of an access, or the rest's own fault. -/
theorem withAccess_fault {kind : AccessKind} {ea : Word} {n : Nat} {s : State} {k : Result} {f : Fault}
    (h : withAccess kind ea n s k = .fault f) :
    (f = .misalignedData ea n ∧ s.params.misalignedData = .fault ∧ ea.toNat % n ≠ 0)
      ∨ (f = .stuck ea n kind ∧ s.admits ea n kind = false) ∨ k = .fault f := by
  unfold withAccess at h
  split at h
  · rename_i hc
    simp only [Bool.and_eq_true, Bool.not_eq_true', decide_eq_true_eq] at hc
    cases h
    exact .inl ⟨rfl, hc.2, by simpa [aligned] using hc.1⟩
  · split at h
    · rename_i hc
      cases h
      exact .inr (.inl ⟨rfl, by simpa using hc⟩)
    · exact .inr (.inr h)

end Sys2Proof.Machine
end

