-- ==== Sys2Proof/Laws/Exec.lean ====
section
/-! SUPPORT. What the shared operations of the instruction families can do: one lemma for each that says everything it
does when it answers a next state, and the facts about fields that the rules use. -/

set_option Elab.async false

namespace Sys2Proof.Machine

open Sys2Proof.Config

/-! ### Fields -/

/-- `sext_N` is two's-complement sign extension. -/
theorem sext_eq_signExtend {n : Nat} (v : BitVec n) (hpos : 0 < n) (hn : n ≤ 64) : sext v = v.signExtend 64 := by
  apply BitVec.eq_of_getLsbD_eq
  intro i hi
  have hm : v.msb = v.getLsbD (n - 1) := by rw [BitVec.msb_eq_getLsbD_last]
  have hs : (v.setWidth 64).getLsbD (n - 1) = v.getLsbD (n - 1) := by
    rw [BitVec.getLsbD_setWidth]; simp; omega
  rw [BitVec.getLsbD_signExtend]
  unfold sext signExtendField
  rw [hs]
  split
  · rename_i h
    rw [BitVec.getLsbD_or, BitVec.getLsbD_setWidth, BitVec.getLsbD_shiftLeft, BitVec.getLsbD_allOnes]
    by_cases hin : i < n
    · simp [hi, hin]
    · have h3 : i - n < 64 := by omega
      simp [hi, hin, h3, hm, h]
  · rename_i h
    rw [BitVec.getLsbD_setWidth]
    by_cases hin : i < n
    · simp [hi, hin]
    · have hz : v.getLsbD i = false := BitVec.getLsbD_of_ge _ _ (by omega)
      simp [hi, hin, hz, hm, h]

/-- The low word as a field. -/
theorem lowWord_eq (v : Word) : lowWord v = v.extractLsb' 0 32 := by
  apply BitVec.eq_of_getLsbD_eq
  intro i hi
  simp [lowWord, hi]

theorem branchAlways_iff (bo : BitVec 5) : branchAlways bo = true ↔ bo &&& 0b10100#5 = 0b10100#5 := by
  revert bo; decide

theorem ctrDecrements_iff (bo : BitVec 5) : ctrDecrements bo = true ↔ bo.getLsbD 2 = false := by
  revert bo; decide

theorem advance_aligned (p : Word) (h : p.toNat % 4 = 0) : (p + 4#64).toNat % 4 = 0 := by
  rw [BitVec.toNat_add]; simp; omega

/-! ### Loads and stores -/

/-- A load that completes read its operands, passed the checks, and wrote RT and PC. -/
theorem load_next {mode : LoadMode} {n : Nat} {ea : Option Word} {rt : Reg} {s t : State}
    (h : load mode n ea rt s = .next t) :
    ∃ a, ea = some a ∧ t = (s.setGpr rt (loadValue mode n s.mem a)).advance := by
  obtain ⟨a, ha, h⟩ := withOperand_next h
  have h := withAccess_next h
  cases h
  exact ⟨a, ha, rfl⟩

/-- An update-form load that completes wrote RT, then RA, and PC. -/
theorem loadUpdate_next {mode : LoadMode} {n : Nat} {ea : Option Word} {rt ra : Reg} {s t : State}
    (h : loadUpdate mode n ea rt ra s = .next t) :
    ∃ a, ea = some a ∧ t = ((s.setGpr rt (loadValue mode n s.mem a)).setGpr ra a).advance := by
  obtain ⟨a, ha, h⟩ := withOperand_next h
  have h := withAccess_next h
  cases h
  exact ⟨a, ha, rfl⟩

/-- A store that completes wrote the bytes of RS's value, the written-bytes set and PC. -/
theorem store_next {reversed : Bool} {n : Nat} {ea : Option Word} {rs : Reg} {s t : State}
    (h : store reversed n ea rs s = .next t) :
    ∃ a v, ea = some a ∧ s.readGpr rs = some v ∧ t = (s.store a n (storeValue reversed n v)).advance := by
  obtain ⟨a, ha, h⟩ := withOperand_next h
  obtain ⟨v, hv, h⟩ := withOperand_next h
  have h := withAccess_next h
  cases h
  exact ⟨a, v, ha, hv, rfl⟩

/-- An update-form store that completes stored the old RS and then wrote RA. -/
theorem storeUpdate_next {n : Nat} {ea : Option Word} {rs ra : Reg} {s t : State}
    (h : storeUpdate n ea rs ra s = .next t) :
    ∃ a v, ea = some a ∧ s.readGpr rs = some v
      ∧ t = ((s.store a n (storeValue false n v)).setGpr ra a).advance := by
  obtain ⟨a, ha, h⟩ := withOperand_next h
  obtain ⟨v, hv, h⟩ := withOperand_next h
  have h := withAccess_next h
  cases h
  exact ⟨a, v, ha, hv, rfl⟩

/-! ### Branches -/

/-- The end of a branch always answers a next state: the target with LR written when it links, or CIA + 4. -/
theorem finishBranch_next {taken link : Bool} {target : Word} {s t : State}
    (h : finishBranch taken link target s = .next t) :
    (taken = true ∧ t = { s with lr := if link then some (s.pc + 4#64) else s.lr, pc := target })
      ∨ (taken = false ∧ t = { s with pc := s.pc + 4#64 }) := by
  unfold finishBranch at h
  split at h
  · cases h; exact .inl ⟨by assumption, rfl⟩
  · cases h; exact .inr ⟨by simpa using ‹¬ taken = true›, rfl⟩

/-- A conditional branch that completes had its target, and its CTR when it decrements, and went through its end. -/
theorem bcStep_next {bo bi : BitVec 5} {link : Bool} {target : Option Word} {s t : State}
    (h : bcStep bo bi link target s = .next t) :
    ∃ g, target = some g ∧
      ((branchAlways bo = true ∧ finishBranch true link g s = .next t)
        ∨ (branchAlways bo = false ∧ ctrDecrements bo = true ∧ ∃ c, s.ctr = some c
            ∧ finishBranch (ctrTest bo (c - 1#64) && condTest bo bi s.cr) link g { s with ctr := some (c - 1#64) }
              = .next t)
        ∨ (branchAlways bo = false ∧ ctrDecrements bo = false
            ∧ finishBranch (condTest bo bi s.cr) link g s = .next t)) := by
  unfold bcStep at h
  split at h
  · rename_i ha
    obtain ⟨g, hg, h⟩ := withOperand_next h
    exact ⟨g, hg, .inl ⟨ha, h⟩⟩
  · rename_i ha
    split at h
    · rename_i hd
      obtain ⟨c, hc, h⟩ := withOperand_next h
      obtain ⟨g, hg, h⟩ := withOperand_next h
      exact ⟨g, hg, .inr (.inl ⟨by simpa using ha, hd, c, hc, h⟩)⟩
    · rename_i hd
      obtain ⟨g, hg, h⟩ := withOperand_next h
      exact ⟨g, hg, .inr (.inr ⟨by simpa using ha, by simpa using hd, h⟩)⟩

/-! ### Traps and special registers -/

/-- A trap instruction that completes did not meet its condition and moved PC only. -/
theorem trapIf_next {toBits : BitVec 5} {double : Bool} {a b : Word} {s t : State}
    (h : trapIf toBits double a b s = .next t) : trapCondition toBits double a b = false ∧ t = s.advance := by
  unfold trapIf at h
  split at h
  · cases h
  · cases h; exact ⟨by simpa using ‹¬ _ = true›, rfl⟩

/-! ### The step -/

/-- A step that answers a next state passed the fetch checks and ran a decoded instruction. -/
theorem step_next {s t : State} (h : step s = .next t) :
    s.fetchStop = none ∧ ∃ i, decode s.fetchWord = .success i ∧ exec i s = .next t := by
  unfold step at h
  split at h
  · cases h
  · rename_i hf
    split at h
    · cases h
    · rename_i i hd
      exact ⟨hf, i, hd, h⟩

end Sys2Proof.Machine
end

