-- ==== Sys2Proof/Laws/Fields.lean ====
section
/-! SUPPORT. The fields of a word written by a form layout, one lemma for each form and field: the decoder's extractors
undo the encoder's layouts. -/

set_option Elab.async false

set_option linter.unusedSimpArgs false

namespace Sys2Proof

theorem extract_append_high {v w st len : Nat} (x : BitVec v) (y : BitVec w) (h : w ≤ st) :
    (x ++ y).extractLsb' st len = x.extractLsb' (st - w) len := BitVec.extractLsb'_append_eq_of_le h

theorem extract_append_low {v w st len : Nat} (x : BitVec v) (y : BitVec w) (h : st + len ≤ w) :
    (x ++ y).extractLsb' st len = y.extractLsb' st len := BitVec.extractLsb'_append_eq_of_add_le h

theorem getLsbD_append_high {v w i : Nat} (x : BitVec v) (y : BitVec w) (h : w ≤ i) :
    (x ++ y).getLsbD i = x.getLsbD (i - w) := by
  rw [BitVec.getLsbD_append]; simp [Nat.not_lt.mpr h]

theorem getLsbD_append_low {v w i : Nat} (x : BitVec v) (y : BitVec w) (h : i < w) :
    (x ++ y).getLsbD i = y.getLsbD i := by
  rw [BitVec.getLsbD_append]; simp [h]

/-- The low bits of two fields, the lower one whole. -/
theorem extract_append_both {v w k : Nat} (x : BitVec v) (y : BitVec w) :
    (x ++ y).extractLsb' 0 (k + w) = x.extractLsb' 0 k ++ y := by
  apply BitVec.eq_of_getLsbD_eq
  intro i hi
  simp only [BitVec.getLsbD_extractLsb', BitVec.getLsbD_append, Nat.zero_add]
  by_cases h : i < w
  · simp [h, hi]
  · simp [h, hi, show i - w < k by omega]

/-- The two halves of a 10-bit number make it up. -/
theorem extract_join_10 (x : BitVec 10) : x.extractLsb' 5 5 ++ x.extractLsb' 0 5 = x := by
  revert x; decide +kernel

/-- The top bit and the low five bits of a 6-bit number make it up. -/
theorem extract_join_6 (x : BitVec 6) : x.extractLsb' 5 1 ++ x.extractLsb' 0 5 = x := by
  revert x; decide +kernel

theorem ofBool_getLsbD_zero (b : Bool) : (BitVec.ofBool b).getLsbD 0 = b := by cases b <;> rfl

/-! ### D form -/

@[simp] theorem fieldOPCD_formD (op : BitVec 6) (rt ra : BitVec 5) (imm : BitVec 16) :
    fieldOPCD (formD op rt ra imm) = op := by
  simp (decide := true) only [fieldOPCD, formD, extract_append_high, extract_append_low, Nat.reduceLeDiff, Nat.reduceLT, Nat.reduceSub, BitVec.extractLsb'_eq_self]

@[simp] theorem fieldRT_formD (op : BitVec 6) (rt ra : BitVec 5) (imm : BitVec 16) :
    fieldRT (formD op rt ra imm) = rt := by
  simp (decide := true) only [fieldRT, formD, extract_append_high, extract_append_low, Nat.reduceLeDiff, Nat.reduceLT, Nat.reduceSub, BitVec.extractLsb'_eq_self]

@[simp] theorem fieldRA_formD (op : BitVec 6) (rt ra : BitVec 5) (imm : BitVec 16) :
    fieldRA (formD op rt ra imm) = ra := by
  simp (decide := true) only [fieldRA, formD, extract_append_high, extract_append_low, Nat.reduceLeDiff, Nat.reduceLT, Nat.reduceSub, BitVec.extractLsb'_eq_self]

@[simp] theorem fieldImm_formD (op : BitVec 6) (rt ra : BitVec 5) (imm : BitVec 16) :
    fieldImm (formD op rt ra imm) = imm := by
  simp (decide := true) only [fieldImm, formD, extract_append_high, extract_append_low, Nat.reduceLeDiff, Nat.reduceLT, Nat.reduceSub, BitVec.extractLsb'_eq_self]

@[simp] theorem fieldBF_formD (op : BitVec 6) (rt ra : BitVec 5) (imm : BitVec 16) :
    fieldBF (formD op rt ra imm) = rt.extractLsb' 2 3 := by
  simp (decide := true) only [fieldBF, formD, extract_append_high, extract_append_low, Nat.reduceLeDiff, Nat.reduceLT, Nat.reduceSub, BitVec.extractLsb'_eq_self]

@[simp] theorem fieldL_formD (op : BitVec 6) (rt ra : BitVec 5) (imm : BitVec 16) :
    fieldL (formD op rt ra imm) = rt.getLsbD 0 := by
  simp (decide := true) only [fieldL, formD, getLsbD_append_high, getLsbD_append_low, Nat.reduceLeDiff, Nat.reduceLT, Nat.reduceSub, ofBool_getLsbD_zero]

/-! ### DS form -/

@[simp] theorem fieldOPCD_formDS (op : BitVec 6) (rt ra : BitVec 5) (ds : BitVec 14) (xo : BitVec 2) :
    fieldOPCD (formDS op rt ra ds xo) = op := by
  simp (decide := true) only [fieldOPCD, formDS, extract_append_high, extract_append_low, Nat.reduceLeDiff, Nat.reduceLT, Nat.reduceSub, BitVec.extractLsb'_eq_self]

@[simp] theorem fieldRT_formDS (op : BitVec 6) (rt ra : BitVec 5) (ds : BitVec 14) (xo : BitVec 2) :
    fieldRT (formDS op rt ra ds xo) = rt := by
  simp (decide := true) only [fieldRT, formDS, extract_append_high, extract_append_low, Nat.reduceLeDiff, Nat.reduceLT, Nat.reduceSub, BitVec.extractLsb'_eq_self]

@[simp] theorem fieldRA_formDS (op : BitVec 6) (rt ra : BitVec 5) (ds : BitVec 14) (xo : BitVec 2) :
    fieldRA (formDS op rt ra ds xo) = ra := by
  simp (decide := true) only [fieldRA, formDS, extract_append_high, extract_append_low, Nat.reduceLeDiff, Nat.reduceLT, Nat.reduceSub, BitVec.extractLsb'_eq_self]

@[simp] theorem fieldDS_formDS (op : BitVec 6) (rt ra : BitVec 5) (ds : BitVec 14) (xo : BitVec 2) :
    fieldDS (formDS op rt ra ds xo) = ds := by
  simp (decide := true) only [fieldDS, formDS, extract_append_high, extract_append_low, Nat.reduceLeDiff, Nat.reduceLT, Nat.reduceSub, BitVec.extractLsb'_eq_self]

@[simp] theorem fieldXO2_formDS (op : BitVec 6) (rt ra : BitVec 5) (ds : BitVec 14) (xo : BitVec 2) :
    fieldXO2 (formDS op rt ra ds xo) = xo := by
  simp (decide := true) only [fieldXO2, formDS, extract_append_high, extract_append_low, Nat.reduceLeDiff, Nat.reduceLT, Nat.reduceSub, BitVec.extractLsb'_eq_self]

/-! ### I form -/

@[simp] theorem fieldOPCD_formI (op : BitVec 6) (li : BitVec 24) (aa lk : Bool) :
    fieldOPCD (formI op li aa lk) = op := by
  simp (decide := true) only [fieldOPCD, formI, extract_append_high, extract_append_low, Nat.reduceLeDiff, Nat.reduceLT, Nat.reduceSub, BitVec.extractLsb'_eq_self]

@[simp] theorem fieldLI_formI (op : BitVec 6) (li : BitVec 24) (aa lk : Bool) :
    fieldLI (formI op li aa lk) = li := by
  simp (decide := true) only [fieldLI, formI, extract_append_high, extract_append_low, Nat.reduceLeDiff, Nat.reduceLT, Nat.reduceSub, BitVec.extractLsb'_eq_self]

@[simp] theorem fieldAA_formI (op : BitVec 6) (li : BitVec 24) (aa lk : Bool) :
    fieldAA (formI op li aa lk) = aa := by
  simp (decide := true) only [fieldAA, formI, getLsbD_append_high, getLsbD_append_low, Nat.reduceLeDiff, Nat.reduceLT, Nat.reduceSub, ofBool_getLsbD_zero]

@[simp] theorem fieldLK_formI (op : BitVec 6) (li : BitVec 24) (aa lk : Bool) :
    fieldLK (formI op li aa lk) = lk := by
  simp (decide := true) only [fieldLK, formI, getLsbD_append_high, getLsbD_append_low, Nat.reduceLeDiff, Nat.reduceLT, Nat.reduceSub, ofBool_getLsbD_zero]

/-! ### B form -/

@[simp] theorem fieldOPCD_formB (op : BitVec 6) (bo bi : BitVec 5) (bd : BitVec 14) (aa lk : Bool) :
    fieldOPCD (formB op bo bi bd aa lk) = op := by
  simp (decide := true) only [fieldOPCD, formB, extract_append_high, extract_append_low, Nat.reduceLeDiff, Nat.reduceLT, Nat.reduceSub, BitVec.extractLsb'_eq_self]

@[simp] theorem fieldRT_formB (op : BitVec 6) (bo bi : BitVec 5) (bd : BitVec 14) (aa lk : Bool) :
    fieldRT (formB op bo bi bd aa lk) = bo := by
  simp (decide := true) only [fieldRT, formB, extract_append_high, extract_append_low, Nat.reduceLeDiff, Nat.reduceLT, Nat.reduceSub, BitVec.extractLsb'_eq_self]

@[simp] theorem fieldRA_formB (op : BitVec 6) (bo bi : BitVec 5) (bd : BitVec 14) (aa lk : Bool) :
    fieldRA (formB op bo bi bd aa lk) = bi := by
  simp (decide := true) only [fieldRA, formB, extract_append_high, extract_append_low, Nat.reduceLeDiff, Nat.reduceLT, Nat.reduceSub, BitVec.extractLsb'_eq_self]

@[simp] theorem fieldBD_formB (op : BitVec 6) (bo bi : BitVec 5) (bd : BitVec 14) (aa lk : Bool) :
    fieldBD (formB op bo bi bd aa lk) = bd := by
  simp (decide := true) only [fieldBD, formB, extract_append_high, extract_append_low, Nat.reduceLeDiff, Nat.reduceLT, Nat.reduceSub, BitVec.extractLsb'_eq_self]

@[simp] theorem fieldAA_formB (op : BitVec 6) (bo bi : BitVec 5) (bd : BitVec 14) (aa lk : Bool) :
    fieldAA (formB op bo bi bd aa lk) = aa := by
  simp (decide := true) only [fieldAA, formB, getLsbD_append_high, getLsbD_append_low, Nat.reduceLeDiff, Nat.reduceLT, Nat.reduceSub, ofBool_getLsbD_zero]

@[simp] theorem fieldLK_formB (op : BitVec 6) (bo bi : BitVec 5) (bd : BitVec 14) (aa lk : Bool) :
    fieldLK (formB op bo bi bd aa lk) = lk := by
  simp (decide := true) only [fieldLK, formB, getLsbD_append_high, getLsbD_append_low, Nat.reduceLeDiff, Nat.reduceLT, Nat.reduceSub, ofBool_getLsbD_zero]

/-! ### M form -/

@[simp] theorem fieldOPCD_formM (op : BitVec 6) (rs ra rb mb me : BitVec 5) (rc : Bool) :
    fieldOPCD (formM op rs ra rb mb me rc) = op := by
  simp (decide := true) only [fieldOPCD, formM, extract_append_high, extract_append_low, Nat.reduceLeDiff, Nat.reduceLT, Nat.reduceSub, BitVec.extractLsb'_eq_self]

@[simp] theorem fieldRT_formM (op : BitVec 6) (rs ra rb mb me : BitVec 5) (rc : Bool) :
    fieldRT (formM op rs ra rb mb me rc) = rs := by
  simp (decide := true) only [fieldRT, formM, extract_append_high, extract_append_low, Nat.reduceLeDiff, Nat.reduceLT, Nat.reduceSub, BitVec.extractLsb'_eq_self]

@[simp] theorem fieldRA_formM (op : BitVec 6) (rs ra rb mb me : BitVec 5) (rc : Bool) :
    fieldRA (formM op rs ra rb mb me rc) = ra := by
  simp (decide := true) only [fieldRA, formM, extract_append_high, extract_append_low, Nat.reduceLeDiff, Nat.reduceLT, Nat.reduceSub, BitVec.extractLsb'_eq_self]

@[simp] theorem fieldRB_formM (op : BitVec 6) (rs ra rb mb me : BitVec 5) (rc : Bool) :
    fieldRB (formM op rs ra rb mb me rc) = rb := by
  simp (decide := true) only [fieldRB, formM, extract_append_high, extract_append_low, Nat.reduceLeDiff, Nat.reduceLT, Nat.reduceSub, BitVec.extractLsb'_eq_self]

@[simp] theorem fieldMB_formM (op : BitVec 6) (rs ra rb mb me : BitVec 5) (rc : Bool) :
    fieldMB (formM op rs ra rb mb me rc) = mb := by
  simp (decide := true) only [fieldMB, formM, extract_append_high, extract_append_low, Nat.reduceLeDiff, Nat.reduceLT, Nat.reduceSub, BitVec.extractLsb'_eq_self]

@[simp] theorem fieldME_formM (op : BitVec 6) (rs ra rb mb me : BitVec 5) (rc : Bool) :
    fieldME (formM op rs ra rb mb me rc) = me := by
  simp (decide := true) only [fieldME, formM, extract_append_high, extract_append_low, Nat.reduceLeDiff, Nat.reduceLT, Nat.reduceSub, BitVec.extractLsb'_eq_self]

@[simp] theorem fieldRc_formM (op : BitVec 6) (rs ra rb mb me : BitVec 5) (rc : Bool) :
    fieldRc (formM op rs ra rb mb me rc) = rc := by
  simp (decide := true) only [fieldRc, formM, getLsbD_append_high, getLsbD_append_low, Nat.reduceLeDiff, Nat.reduceLT, Nat.reduceSub, ofBool_getLsbD_zero]

/-! ### MD form -/

@[simp] theorem fieldOPCD_formMD (op : BitVec 6) (rs ra : BitVec 5) (sh mbe : BitVec 6) (xo : BitVec 3) (rc : Bool) :
    fieldOPCD (formMD op rs ra sh mbe xo rc) = op := by
  simp (decide := true) only [fieldOPCD, formMD, extract_append_high, extract_append_low, Nat.reduceLeDiff, Nat.reduceLT, Nat.reduceSub, BitVec.extractLsb'_eq_self]

@[simp] theorem fieldRT_formMD (op : BitVec 6) (rs ra : BitVec 5) (sh mbe : BitVec 6) (xo : BitVec 3) (rc : Bool) :
    fieldRT (formMD op rs ra sh mbe xo rc) = rs := by
  simp (decide := true) only [fieldRT, formMD, extract_append_high, extract_append_low, Nat.reduceLeDiff, Nat.reduceLT, Nat.reduceSub, BitVec.extractLsb'_eq_self]

@[simp] theorem fieldRA_formMD (op : BitVec 6) (rs ra : BitVec 5) (sh mbe : BitVec 6) (xo : BitVec 3) (rc : Bool) :
    fieldRA (formMD op rs ra sh mbe xo rc) = ra := by
  simp (decide := true) only [fieldRA, formMD, extract_append_high, extract_append_low, Nat.reduceLeDiff, Nat.reduceLT, Nat.reduceSub, BitVec.extractLsb'_eq_self]

@[simp] theorem fieldSh6_formMD (op : BitVec 6) (rs ra : BitVec 5) (sh mbe : BitVec 6) (xo : BitVec 3) (rc : Bool) :
    fieldSh6 (formMD op rs ra sh mbe xo rc) = sh := by
  simp (decide := true) only [fieldSh6, formMD, extract_append_high, extract_append_low, Nat.reduceLeDiff, Nat.reduceLT, Nat.reduceSub, BitVec.extractLsb'_eq_self, extract_join_6]

@[simp] theorem fieldMbe6_formMD (op : BitVec 6) (rs ra : BitVec 5) (sh mbe : BitVec 6) (xo : BitVec 3) (rc : Bool) :
    fieldMbe6 (formMD op rs ra sh mbe xo rc) = mbe := by
  simp (decide := true) only [fieldMbe6, formMD, extract_append_high, extract_append_low, Nat.reduceLeDiff, Nat.reduceLT, Nat.reduceSub, BitVec.extractLsb'_eq_self, extract_join_6]

@[simp] theorem fieldXO4_formMD (op : BitVec 6) (rs ra : BitVec 5) (sh mbe : BitVec 6) (xo : BitVec 3) (rc : Bool) :
    fieldXO4 (formMD op rs ra sh mbe xo rc) = xo ++ sh.extractLsb' 5 1 := by
  simp (decide := true) only [fieldXO4, formMD, extract_append_high, extract_append_low, Nat.reduceLeDiff, Nat.reduceSub]
  exact (extract_append_both (k := 3) (w := 1) _ _).trans (by simp (decide := true) only [extract_append_low, BitVec.extractLsb'_eq_self])

@[simp] theorem fieldRc_formMD (op : BitVec 6) (rs ra : BitVec 5) (sh mbe : BitVec 6) (xo : BitVec 3) (rc : Bool) :
    fieldRc (formMD op rs ra sh mbe xo rc) = rc := by
  simp (decide := true) only [fieldRc, formMD, getLsbD_append_high, getLsbD_append_low, Nat.reduceLeDiff, Nat.reduceLT, Nat.reduceSub, ofBool_getLsbD_zero]

/-! ### MDS form -/

@[simp] theorem fieldOPCD_formMDS (op : BitVec 6) (rs ra rb : BitVec 5) (mbe : BitVec 6) (xo : BitVec 4) (rc : Bool) :
    fieldOPCD (formMDS op rs ra rb mbe xo rc) = op := by
  simp (decide := true) only [fieldOPCD, formMDS, extract_append_high, extract_append_low, Nat.reduceLeDiff, Nat.reduceLT, Nat.reduceSub, BitVec.extractLsb'_eq_self]

@[simp] theorem fieldRT_formMDS (op : BitVec 6) (rs ra rb : BitVec 5) (mbe : BitVec 6) (xo : BitVec 4) (rc : Bool) :
    fieldRT (formMDS op rs ra rb mbe xo rc) = rs := by
  simp (decide := true) only [fieldRT, formMDS, extract_append_high, extract_append_low, Nat.reduceLeDiff, Nat.reduceLT, Nat.reduceSub, BitVec.extractLsb'_eq_self]

@[simp] theorem fieldRA_formMDS (op : BitVec 6) (rs ra rb : BitVec 5) (mbe : BitVec 6) (xo : BitVec 4) (rc : Bool) :
    fieldRA (formMDS op rs ra rb mbe xo rc) = ra := by
  simp (decide := true) only [fieldRA, formMDS, extract_append_high, extract_append_low, Nat.reduceLeDiff, Nat.reduceLT, Nat.reduceSub, BitVec.extractLsb'_eq_self]

@[simp] theorem fieldRB_formMDS (op : BitVec 6) (rs ra rb : BitVec 5) (mbe : BitVec 6) (xo : BitVec 4) (rc : Bool) :
    fieldRB (formMDS op rs ra rb mbe xo rc) = rb := by
  simp (decide := true) only [fieldRB, formMDS, extract_append_high, extract_append_low, Nat.reduceLeDiff, Nat.reduceLT, Nat.reduceSub, BitVec.extractLsb'_eq_self]

@[simp] theorem fieldMbe6_formMDS (op : BitVec 6) (rs ra rb : BitVec 5) (mbe : BitVec 6) (xo : BitVec 4) (rc : Bool) :
    fieldMbe6 (formMDS op rs ra rb mbe xo rc) = mbe := by
  simp (decide := true) only [fieldMbe6, formMDS, extract_append_high, extract_append_low, Nat.reduceLeDiff, Nat.reduceLT, Nat.reduceSub, BitVec.extractLsb'_eq_self, extract_join_6]

@[simp] theorem fieldXO4_formMDS (op : BitVec 6) (rs ra rb : BitVec 5) (mbe : BitVec 6) (xo : BitVec 4) (rc : Bool) :
    fieldXO4 (formMDS op rs ra rb mbe xo rc) = xo := by
  simp (decide := true) only [fieldXO4, formMDS, extract_append_high, extract_append_low, Nat.reduceLeDiff, Nat.reduceLT, Nat.reduceSub, BitVec.extractLsb'_eq_self]

@[simp] theorem fieldRc_formMDS (op : BitVec 6) (rs ra rb : BitVec 5) (mbe : BitVec 6) (xo : BitVec 4) (rc : Bool) :
    fieldRc (formMDS op rs ra rb mbe xo rc) = rc := by
  simp (decide := true) only [fieldRc, formMDS, getLsbD_append_high, getLsbD_append_low, Nat.reduceLeDiff, Nat.reduceLT, Nat.reduceSub, ofBool_getLsbD_zero]

/-! ### X form -/

@[simp] theorem fieldOPCD_formX (op : BitVec 6) (rt ra rb : BitVec 5) (xo : BitVec 10) (rc : Bool) :
    fieldOPCD (formX op rt ra rb xo rc) = op := by
  simp (decide := true) only [fieldOPCD, formX, extract_append_high, extract_append_low, Nat.reduceLeDiff, Nat.reduceLT, Nat.reduceSub, BitVec.extractLsb'_eq_self]

@[simp] theorem fieldRT_formX (op : BitVec 6) (rt ra rb : BitVec 5) (xo : BitVec 10) (rc : Bool) :
    fieldRT (formX op rt ra rb xo rc) = rt := by
  simp (decide := true) only [fieldRT, formX, extract_append_high, extract_append_low, Nat.reduceLeDiff, Nat.reduceLT, Nat.reduceSub, BitVec.extractLsb'_eq_self]

@[simp] theorem fieldRA_formX (op : BitVec 6) (rt ra rb : BitVec 5) (xo : BitVec 10) (rc : Bool) :
    fieldRA (formX op rt ra rb xo rc) = ra := by
  simp (decide := true) only [fieldRA, formX, extract_append_high, extract_append_low, Nat.reduceLeDiff, Nat.reduceLT, Nat.reduceSub, BitVec.extractLsb'_eq_self]

@[simp] theorem fieldRB_formX (op : BitVec 6) (rt ra rb : BitVec 5) (xo : BitVec 10) (rc : Bool) :
    fieldRB (formX op rt ra rb xo rc) = rb := by
  simp (decide := true) only [fieldRB, formX, extract_append_high, extract_append_low, Nat.reduceLeDiff, Nat.reduceLT, Nat.reduceSub, BitVec.extractLsb'_eq_self]

@[simp] theorem fieldXO10_formX (op : BitVec 6) (rt ra rb : BitVec 5) (xo : BitVec 10) (rc : Bool) :
    fieldXO10 (formX op rt ra rb xo rc) = xo := by
  simp (decide := true) only [fieldXO10, formX, extract_append_high, extract_append_low, Nat.reduceLeDiff, Nat.reduceLT, Nat.reduceSub, BitVec.extractLsb'_eq_self]

@[simp] theorem fieldXO9_formX (op : BitVec 6) (rt ra rb : BitVec 5) (xo : BitVec 10) (rc : Bool) :
    fieldXO9 (formX op rt ra rb xo rc) = xo.extractLsb' 0 9 := by
  simp (decide := true) only [fieldXO9, formX, extract_append_high, extract_append_low, Nat.reduceLeDiff, Nat.reduceLT, Nat.reduceSub, BitVec.extractLsb'_eq_self]

@[simp] theorem fieldRc_formX (op : BitVec 6) (rt ra rb : BitVec 5) (xo : BitVec 10) (rc : Bool) :
    fieldRc (formX op rt ra rb xo rc) = rc := by
  simp (decide := true) only [fieldRc, formX, getLsbD_append_high, getLsbD_append_low, Nat.reduceLeDiff, Nat.reduceLT, Nat.reduceSub, ofBool_getLsbD_zero]

@[simp] theorem fieldLK_formX (op : BitVec 6) (rt ra rb : BitVec 5) (xo : BitVec 10) (rc : Bool) :
    fieldLK (formX op rt ra rb xo rc) = rc := by
  simp (decide := true) only [fieldLK, formX, getLsbD_append_high, getLsbD_append_low, Nat.reduceLeDiff, Nat.reduceLT, Nat.reduceSub, ofBool_getLsbD_zero]

@[simp] theorem fieldBF_formX (op : BitVec 6) (rt ra rb : BitVec 5) (xo : BitVec 10) (rc : Bool) :
    fieldBF (formX op rt ra rb xo rc) = rt.extractLsb' 2 3 := by
  simp (decide := true) only [fieldBF, formX, extract_append_high, extract_append_low, Nat.reduceLeDiff, Nat.reduceLT, Nat.reduceSub, BitVec.extractLsb'_eq_self]

@[simp] theorem fieldBFA_formX (op : BitVec 6) (rt ra rb : BitVec 5) (xo : BitVec 10) (rc : Bool) :
    fieldBFA (formX op rt ra rb xo rc) = ra.extractLsb' 2 3 := by
  simp (decide := true) only [fieldBFA, formX, extract_append_high, extract_append_low, Nat.reduceLeDiff, Nat.reduceLT, Nat.reduceSub, BitVec.extractLsb'_eq_self]

@[simp] theorem fieldL_formX (op : BitVec 6) (rt ra rb : BitVec 5) (xo : BitVec 10) (rc : Bool) :
    fieldL (formX op rt ra rb xo rc) = rt.getLsbD 0 := by
  simp (decide := true) only [fieldL, formX, getLsbD_append_high, getLsbD_append_low, Nat.reduceLeDiff, Nat.reduceLT, Nat.reduceSub, ofBool_getLsbD_zero]

@[simp] theorem fieldSyncL_formX (op : BitVec 6) (rt ra rb : BitVec 5) (xo : BitVec 10) (rc : Bool) :
    fieldSyncL (formX op rt ra rb xo rc) = rt.extractLsb' 0 2 := by
  simp (decide := true) only [fieldSyncL, formX, extract_append_high, extract_append_low, Nat.reduceLeDiff, Nat.reduceLT, Nat.reduceSub, BitVec.extractLsb'_eq_self]

@[simp] theorem fieldBH_formX (op : BitVec 6) (rt ra rb : BitVec 5) (xo : BitVec 10) (rc : Bool) :
    fieldBH (formX op rt ra rb xo rc) = rb.extractLsb' 0 2 := by
  simp (decide := true) only [fieldBH, formX, extract_append_high, extract_append_low, Nat.reduceLeDiff, Nat.reduceLT, Nat.reduceSub, BitVec.extractLsb'_eq_self]

/-! ### XFXSpr form -/

@[simp] theorem fieldOPCD_formXFXSpr (op : BitVec 6) (rt : BitVec 5) (spr xo : BitVec 10) :
    fieldOPCD (formXFXSpr op rt spr xo) = op := by
  simp (decide := true) only [fieldOPCD, formXFXSpr, extract_append_high, extract_append_low, Nat.reduceLeDiff, Nat.reduceLT, Nat.reduceSub, BitVec.extractLsb'_eq_self]

@[simp] theorem fieldRT_formXFXSpr (op : BitVec 6) (rt : BitVec 5) (spr xo : BitVec 10) :
    fieldRT (formXFXSpr op rt spr xo) = rt := by
  simp (decide := true) only [fieldRT, formXFXSpr, extract_append_high, extract_append_low, Nat.reduceLeDiff, Nat.reduceLT, Nat.reduceSub, BitVec.extractLsb'_eq_self]

@[simp] theorem fieldSPR_formXFXSpr (op : BitVec 6) (rt : BitVec 5) (spr xo : BitVec 10) :
    fieldSPR (formXFXSpr op rt spr xo) = spr := by
  simp (decide := true) only [fieldSPR, formXFXSpr, extract_append_high, extract_append_low, Nat.reduceLeDiff, Nat.reduceLT, Nat.reduceSub, BitVec.extractLsb'_eq_self, extract_join_10]

@[simp] theorem fieldXO10_formXFXSpr (op : BitVec 6) (rt : BitVec 5) (spr xo : BitVec 10) :
    fieldXO10 (formXFXSpr op rt spr xo) = xo := by
  simp (decide := true) only [fieldXO10, formXFXSpr, extract_append_high, extract_append_low, Nat.reduceLeDiff, Nat.reduceLT, Nat.reduceSub, BitVec.extractLsb'_eq_self]

/-! ### XFXCr form -/

@[simp] theorem fieldOPCD_formXFXCr (op : BitVec 6) (rt : BitVec 5) (one : Bool) (fxm : BitVec 8) (xo : BitVec 10) :
    fieldOPCD (formXFXCr op rt one fxm xo) = op := by
  simp (decide := true) only [fieldOPCD, formXFXCr, extract_append_high, extract_append_low, Nat.reduceLeDiff, Nat.reduceLT, Nat.reduceSub, BitVec.extractLsb'_eq_self]

@[simp] theorem fieldRT_formXFXCr (op : BitVec 6) (rt : BitVec 5) (one : Bool) (fxm : BitVec 8) (xo : BitVec 10) :
    fieldRT (formXFXCr op rt one fxm xo) = rt := by
  simp (decide := true) only [fieldRT, formXFXCr, extract_append_high, extract_append_low, Nat.reduceLeDiff, Nat.reduceLT, Nat.reduceSub, BitVec.extractLsb'_eq_self]

@[simp] theorem fieldOne_formXFXCr (op : BitVec 6) (rt : BitVec 5) (one : Bool) (fxm : BitVec 8) (xo : BitVec 10) :
    fieldOne (formXFXCr op rt one fxm xo) = one := by
  simp (decide := true) only [fieldOne, formXFXCr, getLsbD_append_high, getLsbD_append_low, Nat.reduceLeDiff, Nat.reduceLT, Nat.reduceSub, ofBool_getLsbD_zero]

@[simp] theorem fieldFXM_formXFXCr (op : BitVec 6) (rt : BitVec 5) (one : Bool) (fxm : BitVec 8) (xo : BitVec 10) :
    fieldFXM (formXFXCr op rt one fxm xo) = fxm := by
  simp (decide := true) only [fieldFXM, formXFXCr, extract_append_high, extract_append_low, Nat.reduceLeDiff, Nat.reduceLT, Nat.reduceSub, BitVec.extractLsb'_eq_self]

@[simp] theorem fieldXO10_formXFXCr (op : BitVec 6) (rt : BitVec 5) (one : Bool) (fxm : BitVec 8) (xo : BitVec 10) :
    fieldXO10 (formXFXCr op rt one fxm xo) = xo := by
  simp (decide := true) only [fieldXO10, formXFXCr, extract_append_high, extract_append_low, Nat.reduceLeDiff, Nat.reduceLT, Nat.reduceSub, BitVec.extractLsb'_eq_self]

/-! ### XO form -/

@[simp] theorem fieldOPCD_formXO (op : BitVec 6) (rt ra rb : BitVec 5) (oe : Bool) (xo : BitVec 9) (rc : Bool) :
    fieldOPCD (formXO op rt ra rb oe xo rc) = op := by
  simp (decide := true) only [fieldOPCD, formXO, extract_append_high, extract_append_low, Nat.reduceLeDiff, Nat.reduceLT, Nat.reduceSub, BitVec.extractLsb'_eq_self]

@[simp] theorem fieldRT_formXO (op : BitVec 6) (rt ra rb : BitVec 5) (oe : Bool) (xo : BitVec 9) (rc : Bool) :
    fieldRT (formXO op rt ra rb oe xo rc) = rt := by
  simp (decide := true) only [fieldRT, formXO, extract_append_high, extract_append_low, Nat.reduceLeDiff, Nat.reduceLT, Nat.reduceSub, BitVec.extractLsb'_eq_self]

@[simp] theorem fieldRA_formXO (op : BitVec 6) (rt ra rb : BitVec 5) (oe : Bool) (xo : BitVec 9) (rc : Bool) :
    fieldRA (formXO op rt ra rb oe xo rc) = ra := by
  simp (decide := true) only [fieldRA, formXO, extract_append_high, extract_append_low, Nat.reduceLeDiff, Nat.reduceLT, Nat.reduceSub, BitVec.extractLsb'_eq_self]

@[simp] theorem fieldRB_formXO (op : BitVec 6) (rt ra rb : BitVec 5) (oe : Bool) (xo : BitVec 9) (rc : Bool) :
    fieldRB (formXO op rt ra rb oe xo rc) = rb := by
  simp (decide := true) only [fieldRB, formXO, extract_append_high, extract_append_low, Nat.reduceLeDiff, Nat.reduceLT, Nat.reduceSub, BitVec.extractLsb'_eq_self]

@[simp] theorem fieldOE_formXO (op : BitVec 6) (rt ra rb : BitVec 5) (oe : Bool) (xo : BitVec 9) (rc : Bool) :
    fieldOE (formXO op rt ra rb oe xo rc) = oe := by
  simp (decide := true) only [fieldOE, formXO, getLsbD_append_high, getLsbD_append_low, Nat.reduceLeDiff, Nat.reduceLT, Nat.reduceSub, ofBool_getLsbD_zero]

@[simp] theorem fieldXO9_formXO (op : BitVec 6) (rt ra rb : BitVec 5) (oe : Bool) (xo : BitVec 9) (rc : Bool) :
    fieldXO9 (formXO op rt ra rb oe xo rc) = xo := by
  simp (decide := true) only [fieldXO9, formXO, extract_append_high, extract_append_low, Nat.reduceLeDiff, Nat.reduceLT, Nat.reduceSub, BitVec.extractLsb'_eq_self]

@[simp] theorem fieldXO10_formXO (op : BitVec 6) (rt ra rb : BitVec 5) (oe : Bool) (xo : BitVec 9) (rc : Bool) :
    fieldXO10 (formXO op rt ra rb oe xo rc) = BitVec.ofBool oe ++ xo := by
  simp (decide := true) only [fieldXO10, formXO, extract_append_high, extract_append_low, Nat.reduceLeDiff, Nat.reduceSub]
  exact (extract_append_both (k := 1) (w := 9) _ _).trans (by simp (decide := true) only [extract_append_low, BitVec.extractLsb'_eq_self])

@[simp] theorem fieldRc_formXO (op : BitVec 6) (rt ra rb : BitVec 5) (oe : Bool) (xo : BitVec 9) (rc : Bool) :
    fieldRc (formXO op rt ra rb oe xo rc) = rc := by
  simp (decide := true) only [fieldRc, formXO, getLsbD_append_high, getLsbD_append_low, Nat.reduceLeDiff, Nat.reduceLT, Nat.reduceSub, ofBool_getLsbD_zero]

/-! ### XS form -/

@[simp] theorem fieldOPCD_formXS (op : BitVec 6) (rs ra : BitVec 5) (sh : BitVec 6) (xo : BitVec 9) (rc : Bool) :
    fieldOPCD (formXS op rs ra sh xo rc) = op := by
  simp (decide := true) only [fieldOPCD, formXS, extract_append_high, extract_append_low, Nat.reduceLeDiff, Nat.reduceLT, Nat.reduceSub, BitVec.extractLsb'_eq_self]

@[simp] theorem fieldRT_formXS (op : BitVec 6) (rs ra : BitVec 5) (sh : BitVec 6) (xo : BitVec 9) (rc : Bool) :
    fieldRT (formXS op rs ra sh xo rc) = rs := by
  simp (decide := true) only [fieldRT, formXS, extract_append_high, extract_append_low, Nat.reduceLeDiff, Nat.reduceLT, Nat.reduceSub, BitVec.extractLsb'_eq_self]

@[simp] theorem fieldRA_formXS (op : BitVec 6) (rs ra : BitVec 5) (sh : BitVec 6) (xo : BitVec 9) (rc : Bool) :
    fieldRA (formXS op rs ra sh xo rc) = ra := by
  simp (decide := true) only [fieldRA, formXS, extract_append_high, extract_append_low, Nat.reduceLeDiff, Nat.reduceLT, Nat.reduceSub, BitVec.extractLsb'_eq_self]

@[simp] theorem fieldSh6_formXS (op : BitVec 6) (rs ra : BitVec 5) (sh : BitVec 6) (xo : BitVec 9) (rc : Bool) :
    fieldSh6 (formXS op rs ra sh xo rc) = sh := by
  simp (decide := true) only [fieldSh6, formXS, extract_append_high, extract_append_low, Nat.reduceLeDiff, Nat.reduceLT, Nat.reduceSub, BitVec.extractLsb'_eq_self, extract_join_6]

@[simp] theorem fieldXO10_formXS (op : BitVec 6) (rs ra : BitVec 5) (sh : BitVec 6) (xo : BitVec 9) (rc : Bool) :
    fieldXO10 (formXS op rs ra sh xo rc) = xo ++ sh.extractLsb' 5 1 := by
  simp (decide := true) only [fieldXO10, formXS, extract_append_high, extract_append_low, Nat.reduceLeDiff, Nat.reduceSub]
  exact (extract_append_both (k := 9) (w := 1) _ _).trans (by simp (decide := true) only [extract_append_low, BitVec.extractLsb'_eq_self])

@[simp] theorem fieldRc_formXS (op : BitVec 6) (rs ra : BitVec 5) (sh : BitVec 6) (xo : BitVec 9) (rc : Bool) :
    fieldRc (formXS op rs ra sh xo rc) = rc := by
  simp (decide := true) only [fieldRc, formXS, getLsbD_append_high, getLsbD_append_low, Nat.reduceLeDiff, Nat.reduceLT, Nat.reduceSub, ofBool_getLsbD_zero]

/-! ### SC form -/

@[simp] theorem fieldOPCD_formSC (op : BitVec 6) (lev : BitVec 7) :
    fieldOPCD (formSC op lev) = op := by
  simp (decide := true) only [fieldOPCD, formSC, extract_append_high, extract_append_low, Nat.reduceLeDiff, Nat.reduceLT, Nat.reduceSub, BitVec.extractLsb'_eq_self]

@[simp] theorem fieldLEV_formSC (op : BitVec 6) (lev : BitVec 7) :
    fieldLEV (formSC op lev) = lev := by
  simp (decide := true) only [fieldLEV, formSC, extract_append_high, extract_append_low, Nat.reduceLeDiff, Nat.reduceLT, Nat.reduceSub, BitVec.extractLsb'_eq_self]

end Sys2Proof
end

