-- ==== Sys2Proof/Laws/State.lean ====
section
/-! SUPPORT. One lemma per field per update of `State`, and what reading a general register or taking a draw gives after
each update, so that no proof unfolds a record update. -/

set_option Elab.async false

namespace Sys2Proof.Machine

/-! ### PC advanced -/

@[simp] theorem State.advance_gpr (s : State) : (s.advance).gpr = s.gpr := rfl
@[simp] theorem State.advance_pc (s : State) : (s.advance).pc = s.pc + 4#64 := rfl
@[simp] theorem State.advance_cr (s : State) : (s.advance).cr = s.cr := rfl
@[simp] theorem State.advance_so (s : State) : (s.advance).so = s.so := rfl
@[simp] theorem State.advance_ov (s : State) : (s.advance).ov = s.ov := rfl
@[simp] theorem State.advance_ca (s : State) : (s.advance).ca = s.ca := rfl
@[simp] theorem State.advance_lr (s : State) : (s.advance).lr = s.lr := rfl
@[simp] theorem State.advance_ctr (s : State) : (s.advance).ctr = s.ctr := rfl
@[simp] theorem State.advance_mem (s : State) : (s.advance).mem = s.mem := rfl
@[simp] theorem State.advance_written (s : State) : (s.advance).written = s.written := rfl
@[simp] theorem State.advance_admitted (s : State) : (s.advance).admitted = s.admitted := rfl
@[simp] theorem State.advance_exit (s : State) : (s.advance).exit = s.exit := rfl
@[simp] theorem State.advance_params (s : State) : (s.advance).params = s.params := rfl
@[simp] theorem State.advance_nextDraw (s : State) : (s.advance).nextDraw = s.nextDraw := rfl
@[simp] theorem State.advance_readGpr (s : State) (q : Reg) : (s.advance).readGpr q = s.readGpr q := rfl
@[simp] theorem State.advance_readGprOrZero (s : State) (q : Reg) :
    (s.advance).readGprOrZero q = s.readGprOrZero q := rfl
@[simp] theorem State.advance_draw (s : State) (m : Nat) : (s.advance).draw m = s.draw m := rfl

/-! ### A general register written -/

@[simp] theorem State.setGpr_gpr (s : State) (r : Reg) (v : Word) : (s.setGpr r v).gpr = s.gpr.set r.toNat (some v) r.isLt := rfl
@[simp] theorem State.setGpr_pc (s : State) (r : Reg) (v : Word) : (s.setGpr r v).pc = s.pc := rfl
@[simp] theorem State.setGpr_cr (s : State) (r : Reg) (v : Word) : (s.setGpr r v).cr = s.cr := rfl
@[simp] theorem State.setGpr_so (s : State) (r : Reg) (v : Word) : (s.setGpr r v).so = s.so := rfl
@[simp] theorem State.setGpr_ov (s : State) (r : Reg) (v : Word) : (s.setGpr r v).ov = s.ov := rfl
@[simp] theorem State.setGpr_ca (s : State) (r : Reg) (v : Word) : (s.setGpr r v).ca = s.ca := rfl
@[simp] theorem State.setGpr_lr (s : State) (r : Reg) (v : Word) : (s.setGpr r v).lr = s.lr := rfl
@[simp] theorem State.setGpr_ctr (s : State) (r : Reg) (v : Word) : (s.setGpr r v).ctr = s.ctr := rfl
@[simp] theorem State.setGpr_mem (s : State) (r : Reg) (v : Word) : (s.setGpr r v).mem = s.mem := rfl
@[simp] theorem State.setGpr_written (s : State) (r : Reg) (v : Word) : (s.setGpr r v).written = s.written := rfl
@[simp] theorem State.setGpr_admitted (s : State) (r : Reg) (v : Word) : (s.setGpr r v).admitted = s.admitted := rfl
@[simp] theorem State.setGpr_exit (s : State) (r : Reg) (v : Word) : (s.setGpr r v).exit = s.exit := rfl
@[simp] theorem State.setGpr_params (s : State) (r : Reg) (v : Word) : (s.setGpr r v).params = s.params := rfl
@[simp] theorem State.setGpr_nextDraw (s : State) (r : Reg) (v : Word) : (s.setGpr r v).nextDraw = s.nextDraw := rfl
@[simp] theorem State.setGpr_draw (s : State) (r : Reg) (v : Word) (m : Nat) : (s.setGpr r v).draw m = s.draw m := rfl

/-- A register that was written reads as the value (10_state.md R53: a write makes it set). -/
@[simp] theorem State.setGpr_readGpr_self (s : State) (r : Reg) (v : Word) : (s.setGpr r v).readGpr r = some v := by
  simp [State.readGpr, State.setGpr]

/-- Every other register reads as before. -/
theorem State.setGpr_readGpr_ne (s : State) (r q : Reg) (v : Word) (h : q ≠ r) :
    (s.setGpr r v).readGpr q = s.readGpr q := by
  have h2 : r.toNat ≠ q.toNat := fun e => h (BitVec.eq_of_toNat_eq e.symm)
  simp [State.readGpr, State.setGpr, h2]

/-- Reading any register after one was written. -/
theorem State.setGpr_readGpr (s : State) (r q : Reg) (v : Word) :
    (s.setGpr r v).readGpr q = if q = r then some v else s.readGpr q := by
  by_cases h : q = r
  · subst h; simp
  · simp [h, State.setGpr_readGpr_ne s r q v h]

/-! ### A draw taken -/

@[simp] theorem State.drawn_gpr (s : State) : (s.drawn).gpr = s.gpr := rfl
@[simp] theorem State.drawn_pc (s : State) : (s.drawn).pc = s.pc := rfl
@[simp] theorem State.drawn_cr (s : State) : (s.drawn).cr = s.cr := rfl
@[simp] theorem State.drawn_so (s : State) : (s.drawn).so = s.so := rfl
@[simp] theorem State.drawn_ov (s : State) : (s.drawn).ov = s.ov := rfl
@[simp] theorem State.drawn_ca (s : State) : (s.drawn).ca = s.ca := rfl
@[simp] theorem State.drawn_lr (s : State) : (s.drawn).lr = s.lr := rfl
@[simp] theorem State.drawn_ctr (s : State) : (s.drawn).ctr = s.ctr := rfl
@[simp] theorem State.drawn_mem (s : State) : (s.drawn).mem = s.mem := rfl
@[simp] theorem State.drawn_written (s : State) : (s.drawn).written = s.written := rfl
@[simp] theorem State.drawn_admitted (s : State) : (s.drawn).admitted = s.admitted := rfl
@[simp] theorem State.drawn_exit (s : State) : (s.drawn).exit = s.exit := rfl
@[simp] theorem State.drawn_params (s : State) : (s.drawn).params = s.params := rfl
@[simp] theorem State.drawn_nextDraw (s : State) : (s.drawn).nextDraw = s.nextDraw + 1 := rfl
@[simp] theorem State.drawn_readGpr (s : State) (q : Reg) : (s.drawn).readGpr q = s.readGpr q := rfl
@[simp] theorem State.drawn_readGprOrZero (s : State) (q : Reg) :
    (s.drawn).readGprOrZero q = s.readGprOrZero q := rfl

/-! ### A store -/

@[simp] theorem State.store_gpr (s : State) (ea : Word) (n : Nat) (v : BitVec (8 * n)) : (s.store ea n v).gpr = s.gpr := rfl
@[simp] theorem State.store_pc (s : State) (ea : Word) (n : Nat) (v : BitVec (8 * n)) : (s.store ea n v).pc = s.pc := rfl
@[simp] theorem State.store_cr (s : State) (ea : Word) (n : Nat) (v : BitVec (8 * n)) : (s.store ea n v).cr = s.cr := rfl
@[simp] theorem State.store_so (s : State) (ea : Word) (n : Nat) (v : BitVec (8 * n)) : (s.store ea n v).so = s.so := rfl
@[simp] theorem State.store_ov (s : State) (ea : Word) (n : Nat) (v : BitVec (8 * n)) : (s.store ea n v).ov = s.ov := rfl
@[simp] theorem State.store_ca (s : State) (ea : Word) (n : Nat) (v : BitVec (8 * n)) : (s.store ea n v).ca = s.ca := rfl
@[simp] theorem State.store_lr (s : State) (ea : Word) (n : Nat) (v : BitVec (8 * n)) : (s.store ea n v).lr = s.lr := rfl
@[simp] theorem State.store_ctr (s : State) (ea : Word) (n : Nat) (v : BitVec (8 * n)) : (s.store ea n v).ctr = s.ctr := rfl
@[simp] theorem State.store_mem (s : State) (ea : Word) (n : Nat) (v : BitVec (8 * n)) : (s.store ea n v).mem = memWrite s.mem ea n v := rfl
@[simp] theorem State.store_written (s : State) (ea : Word) (n : Nat) (v : BitVec (8 * n)) : (s.store ea n v).written = markWritten s.written ea n := rfl
@[simp] theorem State.store_admitted (s : State) (ea : Word) (n : Nat) (v : BitVec (8 * n)) : (s.store ea n v).admitted = s.admitted := rfl
@[simp] theorem State.store_exit (s : State) (ea : Word) (n : Nat) (v : BitVec (8 * n)) : (s.store ea n v).exit = s.exit := rfl
@[simp] theorem State.store_params (s : State) (ea : Word) (n : Nat) (v : BitVec (8 * n)) : (s.store ea n v).params = s.params := rfl
@[simp] theorem State.store_nextDraw (s : State) (ea : Word) (n : Nat) (v : BitVec (8 * n)) : (s.store ea n v).nextDraw = s.nextDraw := rfl
@[simp] theorem State.store_readGpr (s : State) (ea : Word) (n : Nat) (v : BitVec (8 * n)) (q : Reg) : (s.store ea n v).readGpr q = s.readGpr q := rfl
@[simp] theorem State.store_readGprOrZero (s : State) (ea : Word) (n : Nat) (v : BitVec (8 * n)) (q : Reg) :
    (s.store ea n v).readGprOrZero q = s.readGprOrZero q := rfl
@[simp] theorem State.store_draw (s : State) (ea : Word) (n : Nat) (v : BitVec (8 * n)) (m : Nat) : (s.store ea n v).draw m = s.draw m := rfl

/-! ### A comparison-flag write -/

@[simp] theorem State.writeCompare_gpr (s : State) (f : BitVec 3) (c : BitVec 3) (b : Bool) : (s.writeCompare f c b).gpr = s.gpr := rfl
@[simp] theorem State.writeCompare_pc (s : State) (f : BitVec 3) (c : BitVec 3) (b : Bool) : (s.writeCompare f c b).pc = s.pc := rfl
@[simp] theorem State.writeCompare_cr (s : State) (f : BitVec 3) (c : BitVec 3) (b : Bool) : (s.writeCompare f c b).cr = setCrField s.cr f (c ++ BitVec.ofBool (crFieldSO s.cr f || b)) := rfl
@[simp] theorem State.writeCompare_so (s : State) (f : BitVec 3) (c : BitVec 3) (b : Bool) : (s.writeCompare f c b).so = s.so := rfl
@[simp] theorem State.writeCompare_ov (s : State) (f : BitVec 3) (c : BitVec 3) (b : Bool) : (s.writeCompare f c b).ov = s.ov := rfl
@[simp] theorem State.writeCompare_ca (s : State) (f : BitVec 3) (c : BitVec 3) (b : Bool) : (s.writeCompare f c b).ca = s.ca := rfl
@[simp] theorem State.writeCompare_lr (s : State) (f : BitVec 3) (c : BitVec 3) (b : Bool) : (s.writeCompare f c b).lr = s.lr := rfl
@[simp] theorem State.writeCompare_ctr (s : State) (f : BitVec 3) (c : BitVec 3) (b : Bool) : (s.writeCompare f c b).ctr = s.ctr := rfl
@[simp] theorem State.writeCompare_mem (s : State) (f : BitVec 3) (c : BitVec 3) (b : Bool) : (s.writeCompare f c b).mem = s.mem := rfl
@[simp] theorem State.writeCompare_written (s : State) (f : BitVec 3) (c : BitVec 3) (b : Bool) : (s.writeCompare f c b).written = s.written := rfl
@[simp] theorem State.writeCompare_admitted (s : State) (f : BitVec 3) (c : BitVec 3) (b : Bool) : (s.writeCompare f c b).admitted = s.admitted := rfl
@[simp] theorem State.writeCompare_exit (s : State) (f : BitVec 3) (c : BitVec 3) (b : Bool) : (s.writeCompare f c b).exit = s.exit := rfl
@[simp] theorem State.writeCompare_params (s : State) (f : BitVec 3) (c : BitVec 3) (b : Bool) : (s.writeCompare f c b).params = s.params := rfl
@[simp] theorem State.writeCompare_nextDraw (s : State) (f : BitVec 3) (c : BitVec 3) (b : Bool) : (s.writeCompare f c b).nextDraw = s.nextDraw := rfl
@[simp] theorem State.writeCompare_readGpr (s : State) (f : BitVec 3) (c : BitVec 3) (b : Bool) (q : Reg) : (s.writeCompare f c b).readGpr q = s.readGpr q := rfl
@[simp] theorem State.writeCompare_readGprOrZero (s : State) (f : BitVec 3) (c : BitVec 3) (b : Bool) (q : Reg) :
    (s.writeCompare f c b).readGprOrZero q = s.readGprOrZero q := rfl
@[simp] theorem State.writeCompare_draw (s : State) (f : BitVec 3) (c : BitVec 3) (b : Bool) (m : Nat) : (s.writeCompare f c b).draw m = s.draw m := rfl

/-! ### The carry request -/

@[simp] theorem State.writeCarry_gpr (s : State) (c : Bool) : (s.writeCarry c).gpr = s.gpr := by
  unfold State.writeCarry; split <;> rfl
@[simp] theorem State.writeCarry_pc (s : State) (c : Bool) : (s.writeCarry c).pc = s.pc := by
  unfold State.writeCarry; split <;> rfl
@[simp] theorem State.writeCarry_cr (s : State) (c : Bool) : (s.writeCarry c).cr = s.cr := by
  unfold State.writeCarry; split <;> rfl
@[simp] theorem State.writeCarry_so (s : State) (c : Bool) : (s.writeCarry c).so = s.so := by
  unfold State.writeCarry; split <;> rfl
@[simp] theorem State.writeCarry_ov (s : State) (c : Bool) : (s.writeCarry c).ov = s.ov := by
  unfold State.writeCarry; split <;> rfl
@[simp] theorem State.writeCarry_lr (s : State) (c : Bool) : (s.writeCarry c).lr = s.lr := by
  unfold State.writeCarry; split <;> rfl
@[simp] theorem State.writeCarry_ctr (s : State) (c : Bool) : (s.writeCarry c).ctr = s.ctr := by
  unfold State.writeCarry; split <;> rfl
@[simp] theorem State.writeCarry_mem (s : State) (c : Bool) : (s.writeCarry c).mem = s.mem := by
  unfold State.writeCarry; split <;> rfl
@[simp] theorem State.writeCarry_written (s : State) (c : Bool) : (s.writeCarry c).written = s.written := by
  unfold State.writeCarry; split <;> rfl
@[simp] theorem State.writeCarry_admitted (s : State) (c : Bool) : (s.writeCarry c).admitted = s.admitted := by
  unfold State.writeCarry; split <;> rfl
@[simp] theorem State.writeCarry_exit (s : State) (c : Bool) : (s.writeCarry c).exit = s.exit := by
  unfold State.writeCarry; split <;> rfl
@[simp] theorem State.writeCarry_params (s : State) (c : Bool) : (s.writeCarry c).params = s.params := by
  unfold State.writeCarry; split <;> rfl
@[simp] theorem State.writeCarry_readGpr (s : State) (c : Bool) (q : Reg) : (s.writeCarry c).readGpr q = s.readGpr q := by
  unfold State.writeCarry; split <;> rfl

/-! ### The overflow request -/

@[simp] theorem State.writeOverflow_gpr (s : State) (oe o : Bool) : (s.writeOverflow oe o).gpr = s.gpr := by
  unfold State.writeOverflow; split <;> first | rfl | (split <;> rfl)
@[simp] theorem State.writeOverflow_pc (s : State) (oe o : Bool) : (s.writeOverflow oe o).pc = s.pc := by
  unfold State.writeOverflow; split <;> first | rfl | (split <;> rfl)
@[simp] theorem State.writeOverflow_cr (s : State) (oe o : Bool) : (s.writeOverflow oe o).cr = s.cr := by
  unfold State.writeOverflow; split <;> first | rfl | (split <;> rfl)
@[simp] theorem State.writeOverflow_ca (s : State) (oe o : Bool) : (s.writeOverflow oe o).ca = s.ca := by
  unfold State.writeOverflow; split <;> first | rfl | (split <;> rfl)
@[simp] theorem State.writeOverflow_lr (s : State) (oe o : Bool) : (s.writeOverflow oe o).lr = s.lr := by
  unfold State.writeOverflow; split <;> first | rfl | (split <;> rfl)
@[simp] theorem State.writeOverflow_ctr (s : State) (oe o : Bool) : (s.writeOverflow oe o).ctr = s.ctr := by
  unfold State.writeOverflow; split <;> first | rfl | (split <;> rfl)
@[simp] theorem State.writeOverflow_mem (s : State) (oe o : Bool) : (s.writeOverflow oe o).mem = s.mem := by
  unfold State.writeOverflow; split <;> first | rfl | (split <;> rfl)
@[simp] theorem State.writeOverflow_written (s : State) (oe o : Bool) : (s.writeOverflow oe o).written = s.written := by
  unfold State.writeOverflow; split <;> first | rfl | (split <;> rfl)
@[simp] theorem State.writeOverflow_admitted (s : State) (oe o : Bool) : (s.writeOverflow oe o).admitted = s.admitted := by
  unfold State.writeOverflow; split <;> first | rfl | (split <;> rfl)
@[simp] theorem State.writeOverflow_exit (s : State) (oe o : Bool) : (s.writeOverflow oe o).exit = s.exit := by
  unfold State.writeOverflow; split <;> first | rfl | (split <;> rfl)
@[simp] theorem State.writeOverflow_params (s : State) (oe o : Bool) : (s.writeOverflow oe o).params = s.params := by
  unfold State.writeOverflow; split <;> first | rfl | (split <;> rfl)
@[simp] theorem State.writeOverflow_readGpr (s : State) (oe o : Bool) (q : Reg) : (s.writeOverflow oe o).readGpr q = s.readGpr q := by
  unfold State.writeOverflow; split <;> first | rfl | (split <;> rfl)

/-! ### The record request -/

@[simp] theorem State.recordIf_gpr (s : State) (rc : Bool) (v : Word) : (s.recordIf rc v).gpr = s.gpr := by
  unfold State.recordIf; split <;> rfl
@[simp] theorem State.recordIf_pc (s : State) (rc : Bool) (v : Word) : (s.recordIf rc v).pc = s.pc := by
  unfold State.recordIf; split <;> rfl
@[simp] theorem State.recordIf_so (s : State) (rc : Bool) (v : Word) : (s.recordIf rc v).so = s.so := by
  unfold State.recordIf; split <;> rfl
@[simp] theorem State.recordIf_ov (s : State) (rc : Bool) (v : Word) : (s.recordIf rc v).ov = s.ov := by
  unfold State.recordIf; split <;> rfl
@[simp] theorem State.recordIf_ca (s : State) (rc : Bool) (v : Word) : (s.recordIf rc v).ca = s.ca := by
  unfold State.recordIf; split <;> rfl
@[simp] theorem State.recordIf_lr (s : State) (rc : Bool) (v : Word) : (s.recordIf rc v).lr = s.lr := by
  unfold State.recordIf; split <;> rfl
@[simp] theorem State.recordIf_ctr (s : State) (rc : Bool) (v : Word) : (s.recordIf rc v).ctr = s.ctr := by
  unfold State.recordIf; split <;> rfl
@[simp] theorem State.recordIf_mem (s : State) (rc : Bool) (v : Word) : (s.recordIf rc v).mem = s.mem := by
  unfold State.recordIf; split <;> rfl
@[simp] theorem State.recordIf_written (s : State) (rc : Bool) (v : Word) : (s.recordIf rc v).written = s.written := by
  unfold State.recordIf; split <;> rfl
@[simp] theorem State.recordIf_admitted (s : State) (rc : Bool) (v : Word) : (s.recordIf rc v).admitted = s.admitted := by
  unfold State.recordIf; split <;> rfl
@[simp] theorem State.recordIf_exit (s : State) (rc : Bool) (v : Word) : (s.recordIf rc v).exit = s.exit := by
  unfold State.recordIf; split <;> rfl
@[simp] theorem State.recordIf_params (s : State) (rc : Bool) (v : Word) : (s.recordIf rc v).params = s.params := by
  unfold State.recordIf; split <;> rfl
@[simp] theorem State.recordIf_nextDraw (s : State) (rc : Bool) (v : Word) : (s.recordIf rc v).nextDraw = s.nextDraw := by
  unfold State.recordIf; split <;> rfl
@[simp] theorem State.recordIf_readGpr (s : State) (rc : Bool) (v : Word) (q : Reg) : (s.recordIf rc v).readGpr q = s.readGpr q := by
  unfold State.recordIf; split <;> rfl

/-! ### The record request of a drawn result -/

@[simp] theorem State.recordDrawnIf_gpr (s : State) (rc : Bool) : (s.recordDrawnIf rc).gpr = s.gpr := by
  unfold State.recordDrawnIf; split <;> rfl
@[simp] theorem State.recordDrawnIf_pc (s : State) (rc : Bool) : (s.recordDrawnIf rc).pc = s.pc := by
  unfold State.recordDrawnIf; split <;> rfl
@[simp] theorem State.recordDrawnIf_so (s : State) (rc : Bool) : (s.recordDrawnIf rc).so = s.so := by
  unfold State.recordDrawnIf; split <;> rfl
@[simp] theorem State.recordDrawnIf_ov (s : State) (rc : Bool) : (s.recordDrawnIf rc).ov = s.ov := by
  unfold State.recordDrawnIf; split <;> rfl
@[simp] theorem State.recordDrawnIf_ca (s : State) (rc : Bool) : (s.recordDrawnIf rc).ca = s.ca := by
  unfold State.recordDrawnIf; split <;> rfl
@[simp] theorem State.recordDrawnIf_lr (s : State) (rc : Bool) : (s.recordDrawnIf rc).lr = s.lr := by
  unfold State.recordDrawnIf; split <;> rfl
@[simp] theorem State.recordDrawnIf_ctr (s : State) (rc : Bool) : (s.recordDrawnIf rc).ctr = s.ctr := by
  unfold State.recordDrawnIf; split <;> rfl
@[simp] theorem State.recordDrawnIf_mem (s : State) (rc : Bool) : (s.recordDrawnIf rc).mem = s.mem := by
  unfold State.recordDrawnIf; split <;> rfl
@[simp] theorem State.recordDrawnIf_written (s : State) (rc : Bool) : (s.recordDrawnIf rc).written = s.written := by
  unfold State.recordDrawnIf; split <;> rfl
@[simp] theorem State.recordDrawnIf_admitted (s : State) (rc : Bool) : (s.recordDrawnIf rc).admitted = s.admitted := by
  unfold State.recordDrawnIf; split <;> rfl
@[simp] theorem State.recordDrawnIf_exit (s : State) (rc : Bool) : (s.recordDrawnIf rc).exit = s.exit := by
  unfold State.recordDrawnIf; split <;> rfl
@[simp] theorem State.recordDrawnIf_params (s : State) (rc : Bool) : (s.recordDrawnIf rc).params = s.params := by
  unfold State.recordDrawnIf; split <;> rfl
@[simp] theorem State.recordDrawnIf_readGpr (s : State) (rc : Bool) (q : Reg) : (s.recordDrawnIf rc).readGpr q = s.readGpr q := by
  unfold State.recordDrawnIf; split <;> rfl

/-! ### The record request of the carry family -/

@[simp] theorem State.recordCarryIf_gpr (s : State) (rc : Bool) (v : Word) : (s.recordCarryIf rc v).gpr = s.gpr := by
  unfold State.recordCarryIf; split <;> first | rfl | (split <;> rfl)
@[simp] theorem State.recordCarryIf_pc (s : State) (rc : Bool) (v : Word) : (s.recordCarryIf rc v).pc = s.pc := by
  unfold State.recordCarryIf; split <;> first | rfl | (split <;> rfl)
@[simp] theorem State.recordCarryIf_so (s : State) (rc : Bool) (v : Word) : (s.recordCarryIf rc v).so = s.so := by
  unfold State.recordCarryIf; split <;> first | rfl | (split <;> rfl)
@[simp] theorem State.recordCarryIf_ov (s : State) (rc : Bool) (v : Word) : (s.recordCarryIf rc v).ov = s.ov := by
  unfold State.recordCarryIf; split <;> first | rfl | (split <;> rfl)
@[simp] theorem State.recordCarryIf_ca (s : State) (rc : Bool) (v : Word) : (s.recordCarryIf rc v).ca = s.ca := by
  unfold State.recordCarryIf; split <;> first | rfl | (split <;> rfl)
@[simp] theorem State.recordCarryIf_lr (s : State) (rc : Bool) (v : Word) : (s.recordCarryIf rc v).lr = s.lr := by
  unfold State.recordCarryIf; split <;> first | rfl | (split <;> rfl)
@[simp] theorem State.recordCarryIf_ctr (s : State) (rc : Bool) (v : Word) : (s.recordCarryIf rc v).ctr = s.ctr := by
  unfold State.recordCarryIf; split <;> first | rfl | (split <;> rfl)
@[simp] theorem State.recordCarryIf_mem (s : State) (rc : Bool) (v : Word) : (s.recordCarryIf rc v).mem = s.mem := by
  unfold State.recordCarryIf; split <;> first | rfl | (split <;> rfl)
@[simp] theorem State.recordCarryIf_written (s : State) (rc : Bool) (v : Word) : (s.recordCarryIf rc v).written = s.written := by
  unfold State.recordCarryIf; split <;> first | rfl | (split <;> rfl)
@[simp] theorem State.recordCarryIf_admitted (s : State) (rc : Bool) (v : Word) : (s.recordCarryIf rc v).admitted = s.admitted := by
  unfold State.recordCarryIf; split <;> first | rfl | (split <;> rfl)
@[simp] theorem State.recordCarryIf_exit (s : State) (rc : Bool) (v : Word) : (s.recordCarryIf rc v).exit = s.exit := by
  unfold State.recordCarryIf; split <;> first | rfl | (split <;> rfl)
@[simp] theorem State.recordCarryIf_params (s : State) (rc : Bool) (v : Word) : (s.recordCarryIf rc v).params = s.params := by
  unfold State.recordCarryIf; split <;> first | rfl | (split <;> rfl)
@[simp] theorem State.recordCarryIf_readGpr (s : State) (rc : Bool) (v : Word) (q : Reg) : (s.recordCarryIf rc v).readGpr q = s.readGpr q := by
  unfold State.recordCarryIf; split <;> first | rfl | (split <;> rfl)

/-! ### The requests under `reference` (10_state.md R47), where they leave XER alone -/

theorem State.writeCarry_reference (s : State) (c : Bool) (h : s.params.caOvMode = .reference) : s.writeCarry c = s := by
  simp [State.writeCarry, h]

theorem State.writeOverflow_reference (s : State) (oe o : Bool) (h : s.params.caOvMode = .reference) :
    s.writeOverflow oe o = s := by
  simp [State.writeOverflow, h]

@[simp] theorem State.writeOverflow_off (s : State) (o : Bool) : s.writeOverflow false o = s := rfl

theorem State.writeCarry_architectural (s : State) (c : Bool) (h : s.params.caOvMode = .architectural) :
    s.writeCarry c = { s with ca := c } := by
  simp [State.writeCarry, h]

theorem State.writeOverflow_architectural (s : State) (o : Bool) (h : s.params.caOvMode = .architectural) :
    s.writeOverflow true o = { s with ov := o, so := s.so || o } := by
  simp [State.writeOverflow, h]

theorem State.recordCarryIf_reference (s : State) (rc : Bool) (v : Word) (h : s.params.caOvMode = .reference) :
    s.recordCarryIf rc v = if rc then s.recordCarryDraw else s := by
  simp [State.recordCarryIf, h]

theorem State.recordCarryIf_architectural (s : State) (rc : Bool) (v : Word) (h : s.params.caOvMode = .architectural) :
    s.recordCarryIf rc v = s.recordIf rc v := by
  simp [State.recordCarryIf, State.recordIf, h]

end Sys2Proof.Machine
end

