-- ==== Sys2Proof/Laws/Flags.lean ====
section
/-! SUPPORT. The laws of the condition register: one field or one bit read after one was written, the comparison result,
and what each flag request leaves in CR. -/

set_option Elab.async false

namespace Sys2Proof.Machine

open Sys2Proof.Safety

theorem getLsbD_fifteen (k : Nat) : (0xF#32).getLsbD k = decide (k < 4) := by
  rw [BitVec.getLsbD_ofNat, show (15 : Nat) = 2 ^ 4 - 1 by norm_num, Nat.testBit_two_pow_sub_one]
  by_cases h : k < 4
  · simp [h]; omega
  · simp [h]

theorem crField_getLsbD (cr : BitVec 32) (g : BitVec 3) (i : Nat) (hi : i < 4) :
    (crField cr g).getLsbD i = cr.getLsbD (28 - 4 * g.toNat + i) := by
  simp [crField, hi]

theorem setCrField_getLsbD (cr : BitVec 32) (f : BitVec 3) (v : BitVec 4) (j : Nat) (hj : j < 32) :
    (setCrField cr f v).getLsbD j
      = if 28 - 4 * f.toNat ≤ j ∧ j < 32 - 4 * f.toNat then v.getLsbD (j - (28 - 4 * f.toNat))
        else cr.getLsbD j := by
  have hf := f.isLt
  simp only [setCrField, BitVec.getLsbD_or, BitVec.getLsbD_and, BitVec.getLsbD_not, BitVec.getLsbD_shiftLeft,
    getLsbD_fifteen, BitVec.getLsbD_setWidth, hj, decide_true, Bool.true_and]
  by_cases h1 : j < 28 - 4 * f.toNat
  · have : ¬ (28 - 4 * f.toNat ≤ j) := by omega
    simp [h1, this]
  · by_cases h2 : j < 32 - 4 * f.toNat
    · have h3 : j - (28 - 4 * f.toNat) < 4 := by omega
      have h4 : 28 - 4 * f.toNat ≤ j := by omega
      have h5 : j - (28 - 4 * f.toNat) < 32 := by omega
      simp [h1, h2, h3, h4, h5]
    · have h3 : ¬ j - (28 - 4 * f.toNat) < 4 := by omega
      have h4 : v.getLsbD (j - (28 - 4 * f.toNat)) = false := BitVec.getLsbD_of_ge _ _ (by omega)
      simp [h1, h2, h3, h4]

/-- CR field g after field f was overwritten (10_state.md R38). -/
theorem crField_setCrField (cr : BitVec 32) (f g : BitVec 3) (v : BitVec 4) :
    crField (setCrField cr f v) g = if g = f then v else crField cr g := by
  have hf := f.isLt
  have hg := g.isLt
  apply BitVec.eq_of_getLsbD_eq
  intro i hi
  rw [crField_getLsbD _ _ _ hi, setCrField_getLsbD _ _ _ _ (by omega)]
  by_cases h : g = f
  · subst h
    have h1 : 28 - 4 * g.toNat ≤ 28 - 4 * g.toNat + i ∧ 28 - 4 * g.toNat + i < 32 - 4 * g.toNat := by omega
    simp [h1.2]
  · have hne : g.toNat ≠ f.toNat := fun e => h (BitVec.eq_of_toNat_eq e)
    have h1 : ¬ (28 - 4 * f.toNat ≤ 28 - 4 * g.toNat + i ∧ 28 - 4 * g.toNat + i < 32 - 4 * f.toNat) := by omega
    rw [if_neg h1, if_neg h, crField_getLsbD _ _ _ hi]

@[simp] theorem crField_setCrField_self (cr : BitVec 32) (f : BitVec 3) (v : BitVec 4) :
    crField (setCrField cr f v) f = v := by simp [crField_setCrField]

/-- CR bit i, in IBM order, after bit b was overwritten (R38). -/
theorem setCrBit_getLsbD (cr : BitVec 32) (b i : BitVec 5) (v : Bool) :
    (setCrBit cr b v).getLsbD (31 - i.toNat) = if i = b then v else cr.getLsbD (31 - i.toNat) := by
  have hi := i.isLt
  have hb := b.isLt
  have hone : ∀ k, (1#32).getLsbD k = decide (k = 0) := by
    intro k
    rw [BitVec.getLsbD_ofNat]
    cases k with
    | zero => rfl
    | succ k =>
      have : Nat.testBit 1 (k + 1) = false := by
        rw [← Bool.not_eq_true]
        exact fun h => by simpa using Nat.testBit_one_eq_true_iff_self_eq_zero.1 h
      simp [this]
  by_cases h : i = b
  · subst h
    have h4 : 31 - i.toNat < 32 := by omega
    cases v <;> simp [setCrBit, h4]
  · have hne : i.toNat ≠ b.toNat := fun e => h (BitVec.eq_of_toNat_eq e)
    have h2 : (1#32 <<< (31 - b.toNat)).getLsbD (31 - i.toNat) = false := by
      simp only [BitVec.getLsbD_shiftLeft, hone]
      by_cases h3 : 31 - i.toNat < 31 - b.toNat
      · simp [h3]
      · have : ¬ (31 - i.toNat - (31 - b.toNat) = 0) := by omega
        simp [this]
    have h4 : 31 - i.toNat < 32 := by omega
    cases v <;> simp only [setCrBit, Bool.false_eq_true, if_false, if_true, BitVec.getLsbD_or, BitVec.getLsbD_and,
      BitVec.getLsbD_not, h2, h, h4, Bool.or_false, Bool.not_false, Bool.and_true, decide_true]

theorem flagBits (c : BitVec 3) (x : Bool) :
    (c ++ BitVec.ofBool x).getLsbD 3 = c.getLsbD 2 ∧ (c ++ BitVec.ofBool x).getLsbD 2 = c.getLsbD 1
      ∧ (c ++ BitVec.ofBool x).getLsbD 1 = c.getLsbD 0 ∧ (c ++ BitVec.ofBool x).getLsbD 0 = x := by
  revert c x; decide

/-- The comparison's three bits: LT, GT, EQ (44 R400). -/
theorem compareInt_bits (a b : Int) :
    (compareInt a b).getLsbD 2 = decide (a < b) ∧ (compareInt a b).getLsbD 1 = decide (b < a)
      ∧ (compareInt a b).getLsbD 0 = decide (a = b) := by
  unfold compareInt
  split
  · rename_i h
    have h1 : ¬ b < a := by omega
    have h2 : ¬ a = b := by omega
    simp only [h, h1, h2]; decide
  · split
    · rename_i h1 h
      have h2 : ¬ a = b := by omega
      simp only [h, h1, h2]; decide
    · rename_i h1 h2
      have h : a = b := by omega
      simp [h]

/-- The comparison-flag write sets LT, GT and EQ and keeps SO sticky (10_state.md R45, R49). -/
theorem writeCompare_compared (s : State) (f : BitVec 3) (a b : Int) (so : Bool) :
    Compared f a b so s (s.writeCompare f (compareInt a b) so) := by
  unfold Compared OtherFieldsKept
  obtain ⟨h3, h2, h1, h0⟩ := flagBits (compareInt a b) ((crField s.cr f).getLsbD 0 || so)
  obtain ⟨c2, c1, c0⟩ := compareInt_bits a b
  simp only [State.writeCompare_cr, crField_setCrField_self, crFieldSO, h3, h2, h1, h0, c2, c1, c0, true_and]
  intro g hg
  rw [crField_setCrField, if_neg hg]

/-- `Compared` depends on the CR of its states only. -/
theorem compared_congr {f : BitVec 3} {a b : Int} {so : Bool} {s s' t t' : State} (hs : s'.cr = s.cr) (ht : t'.cr = t.cr)
    (h : Compared f a b so s t) : Compared f a b so s' t' := by
  unfold Compared OtherFieldsKept at *
  rw [hs, ht]
  exact h

/-- The record request (10_state.md R46). -/
theorem recordIf_recorded (s u : State) (rc : Bool) (v : Word) (hcr : u.cr = s.cr) (hso : u.so = s.so) :
    RecordedIf rc v s (u.recordIf rc v).advance := by
  cases rc with
  | false => simpa [RecordedIf, State.recordIf] using hcr
  | true =>
    simp only [RecordedIf, if_true, State.recordIf, State.recordResult]
    rw [← hso]
    exact compared_congr hcr.symm rfl (writeCompare_compared u 0#3 v.toInt 0 u.so)

/-- The record request of a drawn result (R46): three drawn bits and the sticky SO. -/
theorem recordDrawnIf_drawn (s u : State) (rc : Bool) (hcr : u.cr = s.cr) :
    if rc then FieldZeroDrawn (u.draw 3) u.so s (u.recordDrawnIf rc).advance
    else (u.recordDrawnIf rc).advance.cr = s.cr := by
  cases rc with
  | false => simpa [State.recordDrawnIf] using hcr
  | true =>
    simp only [if_true, State.recordDrawnIf, State.recordDrawn, FieldZeroDrawn, OtherFieldsKept, State.advance_cr,
      State.drawn_cr, State.writeCompare_cr, crField_setCrField_self, crFieldSO, hcr, true_and]
    intro g hg
    rw [crField_setCrField, if_neg hg]

/-- The record request of the carry family under `reference` (R47). -/
theorem recordCarryDraw_drawn (s u : State) (hcr : u.cr = s.cr) :
    FieldZeroDrawn (u.draw 3) (u.drawn.draw 1 == 1#1) s u.recordCarryDraw.advance := by
  simp only [State.recordCarryDraw, FieldZeroDrawn, OtherFieldsKept, State.advance_cr,
    State.drawn_cr, State.writeCompare_cr, crField_setCrField_self, crFieldSO, hcr, true_and]
  intro g hg
  rw [crField_setCrField, if_neg hg]

end Sys2Proof.Machine
end

