-- ==== Sys2Proof/Laws/Frames.lean ====
section
/-! SUPPORT. How a frame is shown: from the fields of the state after, and for the ends that the families of instructions
share. -/

set_option Elab.async false

namespace Sys2Proof.Machine

open Sys2Proof.Safety

/-- A frame from its parts. -/
theorem frame_of {rs : List Reg} {s u : State} (hg : GprKept rs s u) (hlr : u.lr = s.lr) (hctr : u.ctr = s.ctr)
    (hmem : u.mem = s.mem) (hw : u.written = s.written) (he : u.exit = s.exit) (ha : u.admitted = s.admitted)
    (hp : u.params = s.params) (hpc : u.pc = s.pc + 4#64) : Frame rs s u :=
  ⟨hg, ⟨hlr, hctr⟩, ⟨fun a => by rw [hmem], hw⟩, ⟨he, ha, hp⟩, hpc⟩

/-- One register written: every other reads as before. -/
theorem gprKept_setGpr (s : State) (r : Reg) (v : Word) : GprKept [r] s (s.setGpr r v) :=
  fun q hq => State.setGpr_readGpr_ne s r q v (by simpa using hq)

/-- Two registers written: every other reads as before. -/
theorem gprKept_setGpr2 (s : State) (r p : Reg) (v w : Word) : GprKept [r, p] s ((s.setGpr r v).setGpr p w) := by
  intro q hq
  simp only [List.mem_cons, List.not_mem_nil, or_false, not_or] at hq
  rw [State.setGpr_readGpr_ne _ _ _ _ hq.2, State.setGpr_readGpr_ne _ _ _ _ hq.1]

/-- The end of an instruction that writes one register, with the overflow request off or under `reference`. -/
theorem writes_result {i : Instr} {rd : Reg} {oe rc o : Bool} {res : Word} {s : State}
    (hi : exec i s = .next (((s.setGpr rd res).writeOverflow oe o).recordIf rc res).advance)
    (h : oe = false ∨ s.params.caOvMode = .reference) :
    Completes i s fun t => t.readGpr rd = some res ∧ RecordedIf rc res s t ∧ XerKept s t ∧ Frame [rd] s t := by
  have hw : (s.setGpr rd res).writeOverflow oe o = s.setGpr rd res := by
    rcases h with h | h
    · subst h; rfl
    · exact State.writeOverflow_reference _ _ _ h
  rw [hw] at hi
  refine ⟨_, hi, by simp, recordIf_recorded s _ rc res rfl rfl, ⟨by simp, by simp, by simp⟩, ?_⟩
  refine frame_of (fun q hq => ?_) (by simp) (by simp) (by simp) (by simp) (by simp) (by simp) (by simp) (by simp)
  simpa using gprKept_setGpr s rd res q hq

/-- The same end without an overflow request. -/
theorem writes_result_plain {i : Instr} {rd : Reg} {rc : Bool} {res : Word} {s : State}
    (hi : exec i s = .next ((s.setGpr rd res).recordIf rc res).advance) :
    Completes i s fun t => t.readGpr rd = some res ∧ RecordedIf rc res s t ∧ XerKept s t ∧ Frame [rd] s t :=
  writes_result (oe := false) (o := false) hi (.inl rfl)

/-- The end of an instruction whose result holds draws, with the overflow request off or under `reference`; `u` is the
state after the draws of the result were taken. -/
theorem writes_drawn {i : Instr} {rd : Reg} {oe rc o : Bool} {res : Word} {s : State}
    (hi : exec i s = .next (((s.drawn.setGpr rd res).writeOverflow oe o).recordDrawnIf rc).advance)
    (h : oe = false ∨ s.params.caOvMode = .reference) :
    Completes i s fun t => t.readGpr rd = some res
      ∧ (if rc then FieldZeroDrawn (s.drawn.draw 3) s.so s t else t.cr = s.cr) ∧ XerKept s t ∧ Frame [rd] s t := by
  have hw : (s.drawn.setGpr rd res).writeOverflow oe o = s.drawn.setGpr rd res := by
    rcases h with h | h
    · subst h; rfl
    · exact State.writeOverflow_reference _ _ _ h
  rw [hw] at hi
  refine ⟨_, hi, by simp, recordDrawnIf_drawn s _ rc rfl, ⟨by simp, by simp, by simp⟩, ?_⟩
  refine frame_of (fun q hq => ?_) (by simp) (by simp) (by simp) (by simp) (by simp) (by simp) (by simp) (by simp)
  simpa using gprKept_setGpr s.drawn rd res q hq

/-- The end of an instruction that writes one register and nothing else. -/
theorem only_gprs {i : Instr} {rd : Reg} {res : Word} {s : State} (hi : exec i s = .next (s.setGpr rd res).advance) :
    Completes i s fun t => t.readGpr rd = some res ∧ OnlyGprs [rd] s t := by
  refine ⟨_, hi, by simp, ⟨?_, rfl, rfl, rfl, rfl⟩⟩
  refine frame_of (fun q hq => ?_) (by simp) (by simp) (by simp) (by simp) (by simp) (by simp) (by simp) (by simp)
  simpa using gprKept_setGpr s rd res q hq

end Sys2Proof.Machine
end

