-- ==== Sys2Proof/Laws/PerInstr.lean ====
section
/-! SUPPORT. The statements made per instruction: the primary opcode of an instruction's word is the one of its row in the
opcode table (30_encoding.md R122). -/

set_option Elab.async false

namespace Sys2Proof.Laws.PrimaryOpcode

/-- The primary opcode of each row of the opcode table; the rows that stand for many opcodes have none. -/
def rowOpcode : Instr → Option (BitVec 6)
  | .tdi _ _ _ => some 2#6
  | .twi _ _ _ => some 3#6
  | .mulli _ _ _ => some 7#6
  | .subfic _ _ _ => some 8#6
  | .cmpli _ _ _ _ => some 10#6
  | .cmpi _ _ _ _ => some 11#6
  | .addic _ _ _ => some 12#6
  | .addicRc _ _ _ => some 13#6
  | .li _ _ | .addi _ _ _ => some 14#6
  | .lis _ _ | .addis _ _ _ => some 15#6
  | .bc _ _ _ | .bca _ _ _ | .bcl _ _ _ | .bcla _ _ _ => some 16#6
  | .sc _ => some 17#6
  | .b _ | .ba _ | .bl _ | .bla _ => some 18#6
  | .mcrf _ _ | .bclr _ _ _ | .bclrl _ _ _ | .rfid | .crnor _ _ _ | .crandc _ _ _ | .isync | .crxor _ _ _
  | .crnand _ _ _ | .crand _ _ _ | .hrfid | .creqv _ _ _ | .crorc _ _ _ | .cror _ _ _ | .bcctr _ _ _
  | .bcctrl _ _ _ => some 19#6
  | .rlwimi _ _ _ _ _ _ => some 20#6
  | .rlwinm _ _ _ _ _ _ => some 21#6
  | .rlwnm _ _ _ _ _ _ => some 23#6
  | .nop | .ori _ _ _ => some 24#6
  | .oris _ _ _ => some 25#6
  | .xori _ _ _ => some 26#6
  | .xoris _ _ _ => some 27#6
  | .andiRc _ _ _ => some 28#6
  | .andisRc _ _ _ => some 29#6
  | .rldicl _ _ _ _ _ | .rldicr _ _ _ _ _ | .rldic _ _ _ _ _ | .rldimi _ _ _ _ _ | .rldcl _ _ _ _ _
  | .rldcr _ _ _ _ _ => some 30#6
  | .cmp _ _ _ _ | .tw _ _ _ | .subfc _ _ _ _ _ | .mulhdu _ _ _ _ | .addc _ _ _ _ _ | .mulhwu _ _ _ _ | .mfcr _
  | .mfocrf _ _ | .lwarx _ _ _ | .ldx _ _ _ | .lwzx _ _ _ | .slw _ _ _ _ | .cntlzw _ _ _ | .sld _ _ _ _
  | .and _ _ _ _ | .cmpl _ _ _ _ | .subf _ _ _ _ _ | .ldux _ _ _ | .dcbst _ _ | .lwzux _ _ _ | .cntlzd _ _ _
  | .andc _ _ _ _ | .td _ _ _ | .mulhd _ _ _ _ | .mulhw _ _ _ _ | .mfmsr _ | .ldarx _ _ _ | .dcbf _ _
  | .lbzx _ _ _ | .neg _ _ _ _ | .lbzux _ _ _ | .nor _ _ _ _ | .subfe _ _ _ _ _ | .adde _ _ _ _ _ | .mtcrf _ _
  | .mtocrf _ _ | .mtmsr _ | .stdx _ _ _ | .stwcx _ _ _ | .stwx _ _ _ | .mtmsrd _ | .stdux _ _ _ | .stwux _ _ _
  | .subfze _ _ _ _ | .addze _ _ _ _ | .stdcx _ _ _ | .stbx _ _ _ | .subfme _ _ _ _ | .mulld _ _ _ _ _
  | .addme _ _ _ _ | .mullw _ _ _ _ _ | .dcbtst _ _ | .stbux _ _ _ | .add _ _ _ _ _ | .tlbiel _ | .dcbt _ _
  | .lhzx _ _ _ | .eqv _ _ _ _ | .tlbie _ | .lhzux _ _ _ | .xor _ _ _ _ | .mfspr _ _ | .lwax _ _ _ | .lhax _ _ _
  | .tlbia | .mftb _ _ | .lwaux _ _ _ | .lhaux _ _ _ | .slbmte _ _ | .sthx _ _ _ | .orc _ _ _ _ | .sradi _ _ _ _
  | .slbie _ | .sthux _ _ _ | .mr _ _ _ | .or _ _ _ _ | .divdu _ _ _ _ _ | .divwu _ _ _ _ _ | .mtspr _ _
  | .nand _ _ _ _ | .divd _ _ _ _ _ | .divw _ _ _ _ _ | .slbia | .lwbrx _ _ _ | .srw _ _ _ _ | .srd _ _ _ _
  | .tlbsync | .sync _ | .stwbrx _ _ _ | .lhbrx _ _ _ | .sraw _ _ _ _ | .srad _ _ _ _ | .srawi _ _ _ _
  | .slbmfev _ _ | .eieio | .slbmfee _ _ | .sthbrx _ _ _ | .extsh _ _ _ | .extsb _ _ _ | .icbi _ _
  | .extsw _ _ _ | .dcbz _ _ => some 31#6
  | .lwz _ _ _ => some 32#6
  | .lwzu _ _ _ => some 33#6
  | .lbz _ _ _ => some 34#6
  | .lbzu _ _ _ => some 35#6
  | .stw _ _ _ => some 36#6
  | .stwu _ _ _ => some 37#6
  | .stb _ _ _ => some 38#6
  | .stbu _ _ _ => some 39#6
  | .lhz _ _ _ => some 40#6
  | .lhzu _ _ _ => some 41#6
  | .lha _ _ _ => some 42#6
  | .lhau _ _ _ => some 43#6
  | .sth _ _ _ => some 44#6
  | .sthu _ _ _ => some 45#6
  | .ld _ _ _ | .ldu _ _ _ | .lwa _ _ _ => some 58#6
  | .std _ _ _ | .stdu _ _ _ => some 62#6
  | .reserved _ | .passthrough _ => none

/-- The word the encoder writes has the row's primary opcode. -/
def Statement (i : Instr) : Prop := ∀ k, rowOpcode i = some k → fieldOPCD (encode i) = k

theorem tdi (toBits : BitVec 5) (ra : Reg) (si : BitVec 16) : Statement (.tdi toBits ra si) :=
  fun k h => by cases h; simp [encode]
theorem twi (toBits : BitVec 5) (ra : Reg) (si : BitVec 16) : Statement (.twi toBits ra si) :=
  fun k h => by cases h; simp [encode]
theorem mulli (rt : Reg) (ra : Reg) (si : BitVec 16) : Statement (.mulli rt ra si) :=
  fun k h => by cases h; simp [encode]
theorem subfic (rt : Reg) (ra : Reg) (si : BitVec 16) : Statement (.subfic rt ra si) :=
  fun k h => by cases h; simp [encode]
theorem cmpli (bf : BitVec 3) (l : Bool) (ra : Reg) (ui : BitVec 16) : Statement (.cmpli bf l ra ui) :=
  fun k h => by cases h; simp [encode]
theorem cmpi (bf : BitVec 3) (l : Bool) (ra : Reg) (si : BitVec 16) : Statement (.cmpi bf l ra si) :=
  fun k h => by cases h; simp [encode]
theorem addic (rt : Reg) (ra : Reg) (si : BitVec 16) : Statement (.addic rt ra si) :=
  fun k h => by cases h; simp [encode]
theorem addicRc (rt : Reg) (ra : Reg) (si : BitVec 16) : Statement (.addicRc rt ra si) :=
  fun k h => by cases h; simp [encode]
theorem li (rt : Reg) (si : BitVec 16) : Statement (.li rt si) :=
  fun k h => by cases h; simp [encode]
theorem addi (rt : Reg) (ra : Reg) (si : BitVec 16) : Statement (.addi rt ra si) :=
  fun k h => by cases h; simp [encode]
theorem lis (rt : Reg) (si : BitVec 16) : Statement (.lis rt si) :=
  fun k h => by cases h; simp [encode]
theorem addis (rt : Reg) (ra : Reg) (si : BitVec 16) : Statement (.addis rt ra si) :=
  fun k h => by cases h; simp [encode]
theorem bc (bo : BitVec 5) (bi : BitVec 5) (bd : BitVec 14) : Statement (.bc bo bi bd) :=
  fun k h => by cases h; simp [encode]
theorem bca (bo : BitVec 5) (bi : BitVec 5) (bd : BitVec 14) : Statement (.bca bo bi bd) :=
  fun k h => by cases h; simp [encode]
theorem bcl (bo : BitVec 5) (bi : BitVec 5) (bd : BitVec 14) : Statement (.bcl bo bi bd) :=
  fun k h => by cases h; simp [encode]
theorem bcla (bo : BitVec 5) (bi : BitVec 5) (bd : BitVec 14) : Statement (.bcla bo bi bd) :=
  fun k h => by cases h; simp [encode]
theorem sc (lev : BitVec 7) : Statement (.sc lev) :=
  fun k h => by cases h; simp [encode]
theorem b (li : BitVec 24) : Statement (.b li) :=
  fun k h => by cases h; simp [encode]
theorem ba (li : BitVec 24) : Statement (.ba li) :=
  fun k h => by cases h; simp [encode]
theorem bl (li : BitVec 24) : Statement (.bl li) :=
  fun k h => by cases h; simp [encode]
theorem bla (li : BitVec 24) : Statement (.bla li) :=
  fun k h => by cases h; simp [encode]
theorem rlwimi (rs : Reg) (ra : Reg) (sh : BitVec 5) (mb : BitVec 5) (me : BitVec 5) (rc : Bool) : Statement (.rlwimi rs ra sh mb me rc) :=
  fun k h => by cases h; simp [encode]
theorem rlwinm (rs : Reg) (ra : Reg) (sh : BitVec 5) (mb : BitVec 5) (me : BitVec 5) (rc : Bool) : Statement (.rlwinm rs ra sh mb me rc) :=
  fun k h => by cases h; simp [encode]
theorem rlwnm (rs : Reg) (ra : Reg) (rb : Reg) (mb : BitVec 5) (me : BitVec 5) (rc : Bool) : Statement (.rlwnm rs ra rb mb me rc) :=
  fun k h => by cases h; simp [encode]
theorem nop : Statement (.nop) :=
  fun k h => by cases h; simp [encode]
theorem ori (rs : Reg) (ra : Reg) (ui : BitVec 16) : Statement (.ori rs ra ui) :=
  fun k h => by cases h; simp [encode]
theorem oris (rs : Reg) (ra : Reg) (ui : BitVec 16) : Statement (.oris rs ra ui) :=
  fun k h => by cases h; simp [encode]
theorem xori (rs : Reg) (ra : Reg) (ui : BitVec 16) : Statement (.xori rs ra ui) :=
  fun k h => by cases h; simp [encode]
theorem xoris (rs : Reg) (ra : Reg) (ui : BitVec 16) : Statement (.xoris rs ra ui) :=
  fun k h => by cases h; simp [encode]
theorem andiRc (rs : Reg) (ra : Reg) (ui : BitVec 16) : Statement (.andiRc rs ra ui) :=
  fun k h => by cases h; simp [encode]
theorem andisRc (rs : Reg) (ra : Reg) (ui : BitVec 16) : Statement (.andisRc rs ra ui) :=
  fun k h => by cases h; simp [encode]
theorem lwz (rt : Reg) (ra : Reg) (d : BitVec 16) : Statement (.lwz rt ra d) :=
  fun k h => by cases h; simp [encode]
theorem lwzu (rt : Reg) (ra : Reg) (d : BitVec 16) : Statement (.lwzu rt ra d) :=
  fun k h => by cases h; simp [encode]
theorem lbz (rt : Reg) (ra : Reg) (d : BitVec 16) : Statement (.lbz rt ra d) :=
  fun k h => by cases h; simp [encode]
theorem lbzu (rt : Reg) (ra : Reg) (d : BitVec 16) : Statement (.lbzu rt ra d) :=
  fun k h => by cases h; simp [encode]
theorem stw (rs : Reg) (ra : Reg) (d : BitVec 16) : Statement (.stw rs ra d) :=
  fun k h => by cases h; simp [encode]
theorem stwu (rs : Reg) (ra : Reg) (d : BitVec 16) : Statement (.stwu rs ra d) :=
  fun k h => by cases h; simp [encode]
theorem stb (rs : Reg) (ra : Reg) (d : BitVec 16) : Statement (.stb rs ra d) :=
  fun k h => by cases h; simp [encode]
theorem stbu (rs : Reg) (ra : Reg) (d : BitVec 16) : Statement (.stbu rs ra d) :=
  fun k h => by cases h; simp [encode]
theorem lhz (rt : Reg) (ra : Reg) (d : BitVec 16) : Statement (.lhz rt ra d) :=
  fun k h => by cases h; simp [encode]
theorem lhzu (rt : Reg) (ra : Reg) (d : BitVec 16) : Statement (.lhzu rt ra d) :=
  fun k h => by cases h; simp [encode]
theorem lha (rt : Reg) (ra : Reg) (d : BitVec 16) : Statement (.lha rt ra d) :=
  fun k h => by cases h; simp [encode]
theorem lhau (rt : Reg) (ra : Reg) (d : BitVec 16) : Statement (.lhau rt ra d) :=
  fun k h => by cases h; simp [encode]
theorem sth (rs : Reg) (ra : Reg) (d : BitVec 16) : Statement (.sth rs ra d) :=
  fun k h => by cases h; simp [encode]
theorem sthu (rs : Reg) (ra : Reg) (d : BitVec 16) : Statement (.sthu rs ra d) :=
  fun k h => by cases h; simp [encode]
theorem mcrf (bf : BitVec 3) (bfa : BitVec 3) : Statement (.mcrf bf bfa) :=
  fun k h => by cases h; simp [encode]
theorem bclr (bo : BitVec 5) (bi : BitVec 5) (bh : BitVec 2) : Statement (.bclr bo bi bh) :=
  fun k h => by cases h; simp [encode]
theorem bclrl (bo : BitVec 5) (bi : BitVec 5) (bh : BitVec 2) : Statement (.bclrl bo bi bh) :=
  fun k h => by cases h; simp [encode]
theorem rfid : Statement (.rfid) :=
  fun k h => by cases h; simp [encode]
theorem crnor (bt : BitVec 5) (ba : BitVec 5) (bb : BitVec 5) : Statement (.crnor bt ba bb) :=
  fun k h => by cases h; simp [encode]
theorem crandc (bt : BitVec 5) (ba : BitVec 5) (bb : BitVec 5) : Statement (.crandc bt ba bb) :=
  fun k h => by cases h; simp [encode]
theorem isync : Statement (.isync) :=
  fun k h => by cases h; simp [encode]
theorem crxor (bt : BitVec 5) (ba : BitVec 5) (bb : BitVec 5) : Statement (.crxor bt ba bb) :=
  fun k h => by cases h; simp [encode]
theorem crnand (bt : BitVec 5) (ba : BitVec 5) (bb : BitVec 5) : Statement (.crnand bt ba bb) :=
  fun k h => by cases h; simp [encode]
theorem crand (bt : BitVec 5) (ba : BitVec 5) (bb : BitVec 5) : Statement (.crand bt ba bb) :=
  fun k h => by cases h; simp [encode]
theorem hrfid : Statement (.hrfid) :=
  fun k h => by cases h; simp [encode]
theorem creqv (bt : BitVec 5) (ba : BitVec 5) (bb : BitVec 5) : Statement (.creqv bt ba bb) :=
  fun k h => by cases h; simp [encode]
theorem crorc (bt : BitVec 5) (ba : BitVec 5) (bb : BitVec 5) : Statement (.crorc bt ba bb) :=
  fun k h => by cases h; simp [encode]
theorem cror (bt : BitVec 5) (ba : BitVec 5) (bb : BitVec 5) : Statement (.cror bt ba bb) :=
  fun k h => by cases h; simp [encode]
theorem bcctr (bo : BitVec 5) (bi : BitVec 5) (bh : BitVec 2) : Statement (.bcctr bo bi bh) :=
  fun k h => by cases h; simp [encode]
theorem bcctrl (bo : BitVec 5) (bi : BitVec 5) (bh : BitVec 2) : Statement (.bcctrl bo bi bh) :=
  fun k h => by cases h; simp [encode]
theorem rldicl (rs : Reg) (ra : Reg) (sh : BitVec 6) (mb : BitVec 6) (rc : Bool) : Statement (.rldicl rs ra sh mb rc) :=
  fun k h => by cases h; simp [encode]
theorem rldicr (rs : Reg) (ra : Reg) (sh : BitVec 6) (me : BitVec 6) (rc : Bool) : Statement (.rldicr rs ra sh me rc) :=
  fun k h => by cases h; simp [encode]
theorem rldic (rs : Reg) (ra : Reg) (sh : BitVec 6) (mb : BitVec 6) (rc : Bool) : Statement (.rldic rs ra sh mb rc) :=
  fun k h => by cases h; simp [encode]
theorem rldimi (rs : Reg) (ra : Reg) (sh : BitVec 6) (mb : BitVec 6) (rc : Bool) : Statement (.rldimi rs ra sh mb rc) :=
  fun k h => by cases h; simp [encode]
theorem rldcl (rs : Reg) (ra : Reg) (rb : Reg) (mb : BitVec 6) (rc : Bool) : Statement (.rldcl rs ra rb mb rc) :=
  fun k h => by cases h; simp [encode]
theorem rldcr (rs : Reg) (ra : Reg) (rb : Reg) (me : BitVec 6) (rc : Bool) : Statement (.rldcr rs ra rb me rc) :=
  fun k h => by cases h; simp [encode]
theorem cmp (bf : BitVec 3) (l : Bool) (ra : Reg) (rb : Reg) : Statement (.cmp bf l ra rb) :=
  fun k h => by cases h; simp [encode]
theorem tw (toBits : BitVec 5) (ra : Reg) (rb : Reg) : Statement (.tw toBits ra rb) :=
  fun k h => by cases h; simp [encode]
theorem subfc (rt : Reg) (ra : Reg) (rb : Reg) (oe : Bool) (rc : Bool) : Statement (.subfc rt ra rb oe rc) :=
  fun k h => by cases h; simp [encode]
theorem mulhdu (rt : Reg) (ra : Reg) (rb : Reg) (rc : Bool) : Statement (.mulhdu rt ra rb rc) :=
  fun k h => by cases h; simp [encode]
theorem addc (rt : Reg) (ra : Reg) (rb : Reg) (oe : Bool) (rc : Bool) : Statement (.addc rt ra rb oe rc) :=
  fun k h => by cases h; simp [encode]
theorem mulhwu (rt : Reg) (ra : Reg) (rb : Reg) (rc : Bool) : Statement (.mulhwu rt ra rb rc) :=
  fun k h => by cases h; simp [encode]
theorem mfcr (rt : Reg) : Statement (.mfcr rt) :=
  fun k h => by cases h; simp [encode]
theorem mfocrf (rt : Reg) (fxm : BitVec 8) : Statement (.mfocrf rt fxm) :=
  fun k h => by cases h; simp [encode]
theorem lwarx (rt : Reg) (ra : Reg) (rb : Reg) : Statement (.lwarx rt ra rb) :=
  fun k h => by cases h; simp [encode]
theorem ldx (rt : Reg) (ra : Reg) (rb : Reg) : Statement (.ldx rt ra rb) :=
  fun k h => by cases h; simp [encode]
theorem lwzx (rt : Reg) (ra : Reg) (rb : Reg) : Statement (.lwzx rt ra rb) :=
  fun k h => by cases h; simp [encode]
theorem slw (rs : Reg) (ra : Reg) (rb : Reg) (rc : Bool) : Statement (.slw rs ra rb rc) :=
  fun k h => by cases h; simp [encode]
theorem cntlzw (rs : Reg) (ra : Reg) (rc : Bool) : Statement (.cntlzw rs ra rc) :=
  fun k h => by cases h; simp [encode]
theorem sld (rs : Reg) (ra : Reg) (rb : Reg) (rc : Bool) : Statement (.sld rs ra rb rc) :=
  fun k h => by cases h; simp [encode]
theorem and (rs : Reg) (ra : Reg) (rb : Reg) (rc : Bool) : Statement (.and rs ra rb rc) :=
  fun k h => by cases h; simp [encode]
theorem cmpl (bf : BitVec 3) (l : Bool) (ra : Reg) (rb : Reg) : Statement (.cmpl bf l ra rb) :=
  fun k h => by cases h; simp [encode]
theorem subf (rt : Reg) (ra : Reg) (rb : Reg) (oe : Bool) (rc : Bool) : Statement (.subf rt ra rb oe rc) :=
  fun k h => by cases h; simp [encode]
theorem ldux (rt : Reg) (ra : Reg) (rb : Reg) : Statement (.ldux rt ra rb) :=
  fun k h => by cases h; simp [encode]
theorem dcbst (ra : Reg) (rb : Reg) : Statement (.dcbst ra rb) :=
  fun k h => by cases h; simp [encode]
theorem lwzux (rt : Reg) (ra : Reg) (rb : Reg) : Statement (.lwzux rt ra rb) :=
  fun k h => by cases h; simp [encode]
theorem cntlzd (rs : Reg) (ra : Reg) (rc : Bool) : Statement (.cntlzd rs ra rc) :=
  fun k h => by cases h; simp [encode]
theorem andc (rs : Reg) (ra : Reg) (rb : Reg) (rc : Bool) : Statement (.andc rs ra rb rc) :=
  fun k h => by cases h; simp [encode]
theorem td (toBits : BitVec 5) (ra : Reg) (rb : Reg) : Statement (.td toBits ra rb) :=
  fun k h => by cases h; simp [encode]
theorem mulhd (rt : Reg) (ra : Reg) (rb : Reg) (rc : Bool) : Statement (.mulhd rt ra rb rc) :=
  fun k h => by cases h; simp [encode]
theorem mulhw (rt : Reg) (ra : Reg) (rb : Reg) (rc : Bool) : Statement (.mulhw rt ra rb rc) :=
  fun k h => by cases h; simp [encode]
theorem mfmsr (rt : Reg) : Statement (.mfmsr rt) :=
  fun k h => by cases h; simp [encode]
theorem ldarx (rt : Reg) (ra : Reg) (rb : Reg) : Statement (.ldarx rt ra rb) :=
  fun k h => by cases h; simp [encode]
theorem dcbf (ra : Reg) (rb : Reg) : Statement (.dcbf ra rb) :=
  fun k h => by cases h; simp [encode]
theorem lbzx (rt : Reg) (ra : Reg) (rb : Reg) : Statement (.lbzx rt ra rb) :=
  fun k h => by cases h; simp [encode]
theorem neg (rt : Reg) (ra : Reg) (oe : Bool) (rc : Bool) : Statement (.neg rt ra oe rc) :=
  fun k h => by cases h; simp [encode]
theorem lbzux (rt : Reg) (ra : Reg) (rb : Reg) : Statement (.lbzux rt ra rb) :=
  fun k h => by cases h; simp [encode]
theorem nor (rs : Reg) (ra : Reg) (rb : Reg) (rc : Bool) : Statement (.nor rs ra rb rc) :=
  fun k h => by cases h; simp [encode]
theorem subfe (rt : Reg) (ra : Reg) (rb : Reg) (oe : Bool) (rc : Bool) : Statement (.subfe rt ra rb oe rc) :=
  fun k h => by cases h; simp [encode]
theorem adde (rt : Reg) (ra : Reg) (rb : Reg) (oe : Bool) (rc : Bool) : Statement (.adde rt ra rb oe rc) :=
  fun k h => by cases h; simp [encode]
theorem mtcrf (rs : Reg) (fxm : BitVec 8) : Statement (.mtcrf rs fxm) :=
  fun k h => by cases h; simp [encode]
theorem mtocrf (rs : Reg) (fxm : BitVec 8) : Statement (.mtocrf rs fxm) :=
  fun k h => by cases h; simp [encode]
theorem mtmsr (rs : Reg) : Statement (.mtmsr rs) :=
  fun k h => by cases h; simp [encode]
theorem stdx (rs : Reg) (ra : Reg) (rb : Reg) : Statement (.stdx rs ra rb) :=
  fun k h => by cases h; simp [encode]
theorem stwcx (rs : Reg) (ra : Reg) (rb : Reg) : Statement (.stwcx rs ra rb) :=
  fun k h => by cases h; simp [encode]
theorem stwx (rs : Reg) (ra : Reg) (rb : Reg) : Statement (.stwx rs ra rb) :=
  fun k h => by cases h; simp [encode]
theorem mtmsrd (rs : Reg) : Statement (.mtmsrd rs) :=
  fun k h => by cases h; simp [encode]
theorem stdux (rs : Reg) (ra : Reg) (rb : Reg) : Statement (.stdux rs ra rb) :=
  fun k h => by cases h; simp [encode]
theorem stwux (rs : Reg) (ra : Reg) (rb : Reg) : Statement (.stwux rs ra rb) :=
  fun k h => by cases h; simp [encode]
theorem subfze (rt : Reg) (ra : Reg) (oe : Bool) (rc : Bool) : Statement (.subfze rt ra oe rc) :=
  fun k h => by cases h; simp [encode]
theorem addze (rt : Reg) (ra : Reg) (oe : Bool) (rc : Bool) : Statement (.addze rt ra oe rc) :=
  fun k h => by cases h; simp [encode]
theorem stdcx (rs : Reg) (ra : Reg) (rb : Reg) : Statement (.stdcx rs ra rb) :=
  fun k h => by cases h; simp [encode]
theorem stbx (rs : Reg) (ra : Reg) (rb : Reg) : Statement (.stbx rs ra rb) :=
  fun k h => by cases h; simp [encode]
theorem subfme (rt : Reg) (ra : Reg) (oe : Bool) (rc : Bool) : Statement (.subfme rt ra oe rc) :=
  fun k h => by cases h; simp [encode]
theorem mulld (rt : Reg) (ra : Reg) (rb : Reg) (oe : Bool) (rc : Bool) : Statement (.mulld rt ra rb oe rc) :=
  fun k h => by cases h; simp [encode]
theorem addme (rt : Reg) (ra : Reg) (oe : Bool) (rc : Bool) : Statement (.addme rt ra oe rc) :=
  fun k h => by cases h; simp [encode]
theorem mullw (rt : Reg) (ra : Reg) (rb : Reg) (oe : Bool) (rc : Bool) : Statement (.mullw rt ra rb oe rc) :=
  fun k h => by cases h; simp [encode]
theorem dcbtst (ra : Reg) (rb : Reg) : Statement (.dcbtst ra rb) :=
  fun k h => by cases h; simp [encode]
theorem stbux (rs : Reg) (ra : Reg) (rb : Reg) : Statement (.stbux rs ra rb) :=
  fun k h => by cases h; simp [encode]
theorem add (rt : Reg) (ra : Reg) (rb : Reg) (oe : Bool) (rc : Bool) : Statement (.add rt ra rb oe rc) :=
  fun k h => by cases h; simp [encode]
theorem tlbiel (rb : Reg) : Statement (.tlbiel rb) :=
  fun k h => by cases h; simp [encode]
theorem dcbt (ra : Reg) (rb : Reg) : Statement (.dcbt ra rb) :=
  fun k h => by cases h; simp [encode]
theorem lhzx (rt : Reg) (ra : Reg) (rb : Reg) : Statement (.lhzx rt ra rb) :=
  fun k h => by cases h; simp [encode]
theorem eqv (rs : Reg) (ra : Reg) (rb : Reg) (rc : Bool) : Statement (.eqv rs ra rb rc) :=
  fun k h => by cases h; simp [encode]
theorem tlbie (rb : Reg) : Statement (.tlbie rb) :=
  fun k h => by cases h; simp [encode]
theorem lhzux (rt : Reg) (ra : Reg) (rb : Reg) : Statement (.lhzux rt ra rb) :=
  fun k h => by cases h; simp [encode]
theorem xor (rs : Reg) (ra : Reg) (rb : Reg) (rc : Bool) : Statement (.xor rs ra rb rc) :=
  fun k h => by cases h; simp [encode]
theorem mfspr (rt : Reg) (spr : BitVec 10) : Statement (.mfspr rt spr) :=
  fun k h => by cases h; simp [encode]
theorem lwax (rt : Reg) (ra : Reg) (rb : Reg) : Statement (.lwax rt ra rb) :=
  fun k h => by cases h; simp [encode]
theorem lhax (rt : Reg) (ra : Reg) (rb : Reg) : Statement (.lhax rt ra rb) :=
  fun k h => by cases h; simp [encode]
theorem tlbia : Statement (.tlbia) :=
  fun k h => by cases h; simp [encode]
theorem mftb (rt : Reg) (tbr : BitVec 10) : Statement (.mftb rt tbr) :=
  fun k h => by cases h; simp [encode]
theorem lwaux (rt : Reg) (ra : Reg) (rb : Reg) : Statement (.lwaux rt ra rb) :=
  fun k h => by cases h; simp [encode]
theorem lhaux (rt : Reg) (ra : Reg) (rb : Reg) : Statement (.lhaux rt ra rb) :=
  fun k h => by cases h; simp [encode]
theorem slbmte (rs : Reg) (rb : Reg) : Statement (.slbmte rs rb) :=
  fun k h => by cases h; simp [encode]
theorem sthx (rs : Reg) (ra : Reg) (rb : Reg) : Statement (.sthx rs ra rb) :=
  fun k h => by cases h; simp [encode]
theorem orc (rs : Reg) (ra : Reg) (rb : Reg) (rc : Bool) : Statement (.orc rs ra rb rc) :=
  fun k h => by cases h; simp [encode]
theorem sradi (rs : Reg) (ra : Reg) (sh : BitVec 6) (rc : Bool) : Statement (.sradi rs ra sh rc) :=
  fun k h => by cases h; simp [encode]
theorem slbie (rb : Reg) : Statement (.slbie rb) :=
  fun k h => by cases h; simp [encode]
theorem sthux (rs : Reg) (ra : Reg) (rb : Reg) : Statement (.sthux rs ra rb) :=
  fun k h => by cases h; simp [encode]
theorem mr (rs : Reg) (ra : Reg) (rc : Bool) : Statement (.mr rs ra rc) :=
  fun k h => by cases h; simp [encode]
theorem or (rs : Reg) (ra : Reg) (rb : Reg) (rc : Bool) : Statement (.or rs ra rb rc) :=
  fun k h => by cases h; simp [encode]
theorem divdu (rt : Reg) (ra : Reg) (rb : Reg) (oe : Bool) (rc : Bool) : Statement (.divdu rt ra rb oe rc) :=
  fun k h => by cases h; simp [encode]
theorem divwu (rt : Reg) (ra : Reg) (rb : Reg) (oe : Bool) (rc : Bool) : Statement (.divwu rt ra rb oe rc) :=
  fun k h => by cases h; simp [encode]
theorem mtspr (rs : Reg) (spr : BitVec 10) : Statement (.mtspr rs spr) :=
  fun k h => by cases h; simp [encode]
theorem nand (rs : Reg) (ra : Reg) (rb : Reg) (rc : Bool) : Statement (.nand rs ra rb rc) :=
  fun k h => by cases h; simp [encode]
theorem divd (rt : Reg) (ra : Reg) (rb : Reg) (oe : Bool) (rc : Bool) : Statement (.divd rt ra rb oe rc) :=
  fun k h => by cases h; simp [encode]
theorem divw (rt : Reg) (ra : Reg) (rb : Reg) (oe : Bool) (rc : Bool) : Statement (.divw rt ra rb oe rc) :=
  fun k h => by cases h; simp [encode]
theorem slbia : Statement (.slbia) :=
  fun k h => by cases h; simp [encode]
theorem lwbrx (rt : Reg) (ra : Reg) (rb : Reg) : Statement (.lwbrx rt ra rb) :=
  fun k h => by cases h; simp [encode]
theorem srw (rs : Reg) (ra : Reg) (rb : Reg) (rc : Bool) : Statement (.srw rs ra rb rc) :=
  fun k h => by cases h; simp [encode]
theorem srd (rs : Reg) (ra : Reg) (rb : Reg) (rc : Bool) : Statement (.srd rs ra rb rc) :=
  fun k h => by cases h; simp [encode]
theorem tlbsync : Statement (.tlbsync) :=
  fun k h => by cases h; simp [encode]
theorem sync (l : BitVec 2) : Statement (.sync l) :=
  fun k h => by cases h; simp [encode]
theorem stwbrx (rs : Reg) (ra : Reg) (rb : Reg) : Statement (.stwbrx rs ra rb) :=
  fun k h => by cases h; simp [encode]
theorem lhbrx (rt : Reg) (ra : Reg) (rb : Reg) : Statement (.lhbrx rt ra rb) :=
  fun k h => by cases h; simp [encode]
theorem sraw (rs : Reg) (ra : Reg) (rb : Reg) (rc : Bool) : Statement (.sraw rs ra rb rc) :=
  fun k h => by cases h; simp [encode]
theorem srad (rs : Reg) (ra : Reg) (rb : Reg) (rc : Bool) : Statement (.srad rs ra rb rc) :=
  fun k h => by cases h; simp [encode]
theorem srawi (rs : Reg) (ra : Reg) (sh : BitVec 5) (rc : Bool) : Statement (.srawi rs ra sh rc) :=
  fun k h => by cases h; simp [encode]
theorem slbmfev (rt : Reg) (rb : Reg) : Statement (.slbmfev rt rb) :=
  fun k h => by cases h; simp [encode]
theorem eieio : Statement (.eieio) :=
  fun k h => by cases h; simp [encode]
theorem slbmfee (rt : Reg) (rb : Reg) : Statement (.slbmfee rt rb) :=
  fun k h => by cases h; simp [encode]
theorem sthbrx (rs : Reg) (ra : Reg) (rb : Reg) : Statement (.sthbrx rs ra rb) :=
  fun k h => by cases h; simp [encode]
theorem extsh (rs : Reg) (ra : Reg) (rc : Bool) : Statement (.extsh rs ra rc) :=
  fun k h => by cases h; simp [encode]
theorem extsb (rs : Reg) (ra : Reg) (rc : Bool) : Statement (.extsb rs ra rc) :=
  fun k h => by cases h; simp [encode]
theorem icbi (ra : Reg) (rb : Reg) : Statement (.icbi ra rb) :=
  fun k h => by cases h; simp [encode]
theorem extsw (rs : Reg) (ra : Reg) (rc : Bool) : Statement (.extsw rs ra rc) :=
  fun k h => by cases h; simp [encode]
theorem dcbz (ra : Reg) (rb : Reg) : Statement (.dcbz ra rb) :=
  fun k h => by cases h; simp [encode]
theorem ld (rt : Reg) (ra : Reg) (ds : BitVec 14) : Statement (.ld rt ra ds) :=
  fun k h => by cases h; simp [encode]
theorem ldu (rt : Reg) (ra : Reg) (ds : BitVec 14) : Statement (.ldu rt ra ds) :=
  fun k h => by cases h; simp [encode]
theorem lwa (rt : Reg) (ra : Reg) (ds : BitVec 14) : Statement (.lwa rt ra ds) :=
  fun k h => by cases h; simp [encode]
theorem std (rs : Reg) (ra : Reg) (ds : BitVec 14) : Statement (.std rs ra ds) :=
  fun k h => by cases h; simp [encode]
theorem stdu (rs : Reg) (ra : Reg) (ds : BitVec 14) : Statement (.stdu rs ra ds) :=
  fun k h => by cases h; simp [encode]
theorem reserved (w : InsnWord) : Statement (.reserved w) := fun _ h => by cases h
theorem passthrough (w : InsnWord) : Statement (.passthrough w) := fun _ h => by cases h

end Sys2Proof.Laws.PrimaryOpcode
end

