-- ==== Sys2Proof/Laws/Run.lean ====
section
/-! SUPPORT. Runs: what one more step of the bound does, and runs in two parts (70_reset_and_hazards.md R702). -/

set_option Elab.async false

namespace Sys2Proof.Machine

@[simp] theorem runFrom_zero (s : State) : runFrom 0 s = .running s := rfl

/-- A run whose first step answers a next state goes on from it. -/
theorem runFrom_next {n : Nat} {s t : State} (h : step s = .next t) : runFrom (n + 1) s = runFrom n t := by
  simp [runFrom, h]

/-- A run whose first step faults ends there, with the outcome of R601 the fault stands for. -/
theorem runFrom_fault {n : Nat} {s : State} {f : Fault} (h : step s = .fault f) :
    runFrom (n + 1) s = faultOutcome f s := by
  simp [runFrom, h]

/-- A run whose first step is refused ends there. -/
theorem runFrom_refused {n : Nat} {s : State} {r : Refusal} (h : step s = .refused r) :
    runFrom (n + 1) s = .refusal r s := by
  simp [runFrom, h]

/-- No fault reason leaves a run going on. -/
theorem faultOutcome_ne_running (f : Fault) (s t : State) : faultOutcome f s ≠ .running t := by
  cases f <;> simp [faultOutcome]

/-- A run that has not ended within its first part goes on with the second; one that has ended stays ended, however
much longer it may run. -/
theorem runFrom_add (m n : Nat) (s : State) :
    runFrom (m + n) s = match runFrom m s with
      | .running t => runFrom n t
      | out => out := by
  induction m generalizing s with
  | zero => simp
  | succ m ih =>
    rw [Nat.succ_add]
    cases h : step s with
    | next t => rw [runFrom_next h, runFrom_next h, ih]
    | fault f => rw [runFrom_fault h, runFrom_fault h]; cases f <;> rfl
    | refused r => rw [runFrom_refused h, runFrom_refused h]

/-- Steps in two parts. -/
theorem steps_add (m n : Nat) (s t : State) : Safety.Steps (m + n) s t ↔ ∃ u, Safety.Steps m s u ∧ Safety.Steps n u t := by
  induction m generalizing s with
  | zero => simp [Safety.Steps]
  | succ m ih =>
    rw [Nat.succ_add]
    simp only [Safety.Steps, ih]
    constructor
    · rintro ⟨u, hu, v, hv, ht⟩; exact ⟨v, ⟨u, hu, hv⟩, ht⟩
    · rintro ⟨v, ⟨u, hu, hv⟩, ht⟩; exact ⟨u, hu, v, hv, ht⟩

end Sys2Proof.Machine
end

