-- ==== Sys2Proof/Tests/Slice0.lean ====
section
/-! SUPPORT. The author's own tests. Words and expected values come from spec/95_test_vectors.md where a comment names its
section, and otherwise from hand calculation by the encoding forms and the instruction rules. The witnesses that the
statements' hypotheses can be met stand last. -/

set_option Elab.async false

namespace Sys2Proof.Tests

open Sys2Proof.Machine Sys2Proof.Config

/-! ### Helpers -/

/-- The state after reset with some general registers set. -/
def regs (l : List (Reg × Word)) : State := l.foldl (fun s p => s.setGpr p.1 p.2) State.reset

/-- One step on a word placed at PC. -/
def run (w : Nat) (s : State) : Result := step (s.withFetchWord 32 w)

def nextOf : Result → Option State
  | .next t => some t
  | .fault _ | .refused _ => none

def faultOf : Result → Option Fault
  | .fault f => some f
  | .next _ | .refused _ => none

def refusalOf : Result → Option Refusal
  | .refused r => some r
  | .next _ | .fault _ => none

def gprOf (r : Result) (x : Reg) : Option Word := (nextOf r).bind fun t => t.readGpr x
def crOf (r : Result) : Option (BitVec 32) := (nextOf r).map fun t => t.cr
def pcOf (r : Result) : Option Word := (nextOf r).map fun t => t.pc
def lrOf (r : Result) : Option Word := (nextOf r).bind fun t => t.lr
def ctrOf (r : Result) : Option Word := (nextOf r).bind fun t => t.ctr
def xerOf (r : Result) : Option (Bool × Bool × Bool) := (nextOf r).map fun t => (t.so, t.ov, t.ca)
def bytesOf (r : Result) (addr : Word) (n : Nat) : Option (List Byte) := (nextOf r).map fun t => readBytes t.mem addr n
def drawsOf (r : Result) : Option Nat := (nextOf r).map fun t => t.nextDraw

/-- The sixteen bytes at 0x2000 of the vectors of 95_test_vectors.md section 10. -/
def dataBytes : Memory :=
  [(0x2000, 0x80#8), (0x2001, 0x81#8), (0x2002, 0x82#8), (0x2003, 0x83#8), (0x2004, 0x84#8), (0x2005, 0x85#8),
    (0x2006, 0x86#8), (0x2007, 0x87#8), (0x2008, 0xFE#8), (0x2009, 0xDC#8), (0x200A, 0xBA#8), (0x200B, 0x98#8),
    (0x200C, 0x76#8), (0x200D, 0x54#8), (0x200E, 0x32#8), (0x200F, 0x10#8)]

def withData (s : State) : State := { s with mem := dataBytes }

/-! ### Ill-formed instructions, one check at a time (30_encoding.md R130 to R132) -/

theorem test_illformed_lwzu : Instr.wellFormed (.lwzu 5#5 0#5 4#16) = false ∧ Instr.wellFormed (.lwzu 5#5 5#5 4#16) = false
    ∧ Instr.wellFormed (.lwzu 6#5 5#5 4#16) = true := by decide
theorem test_illformed_lbzu : Instr.wellFormed (.lbzu 5#5 0#5 4#16) = false ∧ Instr.wellFormed (.lbzu 5#5 5#5 4#16) = false
    ∧ Instr.wellFormed (.lbzu 6#5 5#5 4#16) = true := by decide
theorem test_illformed_lhzu : Instr.wellFormed (.lhzu 5#5 0#5 4#16) = false ∧ Instr.wellFormed (.lhzu 5#5 5#5 4#16) = false
    ∧ Instr.wellFormed (.lhzu 6#5 5#5 4#16) = true := by decide
theorem test_illformed_lhau : Instr.wellFormed (.lhau 5#5 0#5 4#16) = false ∧ Instr.wellFormed (.lhau 5#5 5#5 4#16) = false
    ∧ Instr.wellFormed (.lhau 6#5 5#5 4#16) = true := by decide
theorem test_illformed_ldu : Instr.wellFormed (.ldu 5#5 0#5 4#14) = false ∧ Instr.wellFormed (.ldu 5#5 5#5 4#14) = false
    ∧ Instr.wellFormed (.ldu 6#5 5#5 4#14) = true := by decide
theorem test_illformed_ldux : Instr.wellFormed (.ldux 5#5 0#5 6#5) = false ∧ Instr.wellFormed (.ldux 5#5 5#5 6#5) = false
    ∧ Instr.wellFormed (.ldux 6#5 5#5 6#5) = true := by decide
theorem test_illformed_lwzux : Instr.wellFormed (.lwzux 5#5 0#5 6#5) = false ∧ Instr.wellFormed (.lwzux 5#5 5#5 6#5) = false
    ∧ Instr.wellFormed (.lwzux 6#5 5#5 6#5) = true := by decide
theorem test_illformed_lbzux : Instr.wellFormed (.lbzux 5#5 0#5 6#5) = false ∧ Instr.wellFormed (.lbzux 5#5 5#5 6#5) = false
    ∧ Instr.wellFormed (.lbzux 6#5 5#5 6#5) = true := by decide
theorem test_illformed_lhzux : Instr.wellFormed (.lhzux 5#5 0#5 6#5) = false ∧ Instr.wellFormed (.lhzux 5#5 5#5 6#5) = false
    ∧ Instr.wellFormed (.lhzux 6#5 5#5 6#5) = true := by decide
theorem test_illformed_lwaux : Instr.wellFormed (.lwaux 5#5 0#5 6#5) = false ∧ Instr.wellFormed (.lwaux 5#5 5#5 6#5) = false
    ∧ Instr.wellFormed (.lwaux 6#5 5#5 6#5) = true := by decide
theorem test_illformed_lhaux : Instr.wellFormed (.lhaux 5#5 0#5 6#5) = false ∧ Instr.wellFormed (.lhaux 5#5 5#5 6#5) = false
    ∧ Instr.wellFormed (.lhaux 6#5 5#5 6#5) = true := by decide
theorem test_illformed_stwu : Instr.wellFormed (.stwu 5#5 0#5 4#16) = false ∧ Instr.wellFormed (.stwu 5#5 5#5 4#16) = true := by
  decide
theorem test_illformed_stbu : Instr.wellFormed (.stbu 5#5 0#5 4#16) = false ∧ Instr.wellFormed (.stbu 5#5 5#5 4#16) = true := by
  decide
theorem test_illformed_sthu : Instr.wellFormed (.sthu 5#5 0#5 4#16) = false ∧ Instr.wellFormed (.sthu 5#5 5#5 4#16) = true := by
  decide
theorem test_illformed_stdu : Instr.wellFormed (.stdu 5#5 0#5 4#14) = false ∧ Instr.wellFormed (.stdu 5#5 5#5 4#14) = true := by
  decide
theorem test_illformed_stdux : Instr.wellFormed (.stdux 5#5 0#5 6#5) = false ∧ Instr.wellFormed (.stdux 5#5 5#5 6#5) = true := by
  decide
theorem test_illformed_stwux : Instr.wellFormed (.stwux 5#5 0#5 6#5) = false ∧ Instr.wellFormed (.stwux 5#5 5#5 6#5) = true := by
  decide
theorem test_illformed_stbux : Instr.wellFormed (.stbux 5#5 0#5 6#5) = false ∧ Instr.wellFormed (.stbux 5#5 5#5 6#5) = true := by
  decide
theorem test_illformed_sthux : Instr.wellFormed (.sthux 5#5 0#5 6#5) = false ∧ Instr.wellFormed (.sthux 5#5 5#5 6#5) = true := by
  decide
theorem test_illformed_addi : Instr.wellFormed (.addi 3#5 0#5 1#16) = false := by decide
theorem test_illformed_addis : Instr.wellFormed (.addis 3#5 0#5 1#16) = false := by decide
theorem test_illformed_ori : Instr.wellFormed (.ori 0#5 0#5 0#16) = false ∧ Instr.wellFormed (.ori 0#5 0#5 1#16) = true := by
  decide
theorem test_illformed_or : Instr.wellFormed (.or 4#5 3#5 4#5 false) = false := by decide
theorem test_illformed_reserved : Instr.wellFormed (.reserved 0#32) = false := by decide
theorem test_illformed_passthrough : Instr.wellFormed (.passthrough 0x38600001#32) = false
    ∧ Instr.wellFormed (.passthrough 0x7C00007C#32) = true := by decide

/-! ### Decoding: one word per constructor, written out from the form's bit positions -/

theorem test_decode_system_1 :
    decode 0b00001010110010011000000000000001#32 = .success (.tdi 22#5 9#5 32769#16)
      ∧ decode 0b00001110110010011000000000000001#32 = .success (.twi 22#5 9#5 32769#16)
      ∧ decode 0b01000100000000000000100000100000#32 = .success (.sc 65#7)
      ∧ decode 0b01001100000000000000000000100100#32 = .success (.rfid)
      ∧ decode 0b01001100000000000000000100101100#32 = .success (.isync)
      ∧ decode 0b01001100000000000000001000100100#32 = .success (.hrfid)
      ∧ decode 0b01111110110010011010100000001000#32 = .success (.tw 22#5 9#5 21#5)
      ∧ decode 0b01111100110010011010100000101000#32 = .success (.lwarx 6#5 9#5 21#5) := by
  decide +kernel

theorem test_decode_system_2 :
    decode 0b01111100000010011010100001101100#32 = .success (.dcbst 9#5 21#5)
      ∧ decode 0b01111110110010011010100010001000#32 = .success (.td 22#5 9#5 21#5)
      ∧ decode 0b01111100110000000000000010100110#32 = .success (.mfmsr 6#5)
      ∧ decode 0b01111100110010011010100010101000#32 = .success (.ldarx 6#5 9#5 21#5)
      ∧ decode 0b01111100000010011010100010101100#32 = .success (.dcbf 9#5 21#5)
      ∧ decode 0b01111111010000000000000100100100#32 = .success (.mtmsr 26#5)
      ∧ decode 0b01111111010010011010100100101100#32 = .success (.stwcx 26#5 9#5 21#5)
      ∧ decode 0b01111111010000000000000101100100#32 = .success (.mtmsrd 26#5) := by
  decide +kernel

theorem test_decode_system_3 :
    decode 0b01111111010010011010100110101100#32 = .success (.stdcx 26#5 9#5 21#5)
      ∧ decode 0b01111100000010011010100111101100#32 = .success (.dcbtst 9#5 21#5)
      ∧ decode 0b01111100000000001010101000100100#32 = .success (.tlbiel 21#5)
      ∧ decode 0b01111100000010011010101000101100#32 = .success (.dcbt 9#5 21#5)
      ∧ decode 0b01111100000000001010101001100100#32 = .success (.tlbie 21#5)
      ∧ decode 0b01111100110011000100001010100110#32 = .success (.mfspr 6#5 268#10)
      ∧ decode 0b01111100000000000000001011100100#32 = .success (.tlbia)
      ∧ decode 0b01111100110011000100001011100110#32 = .success (.mftb 6#5 268#10) := by
  decide +kernel

theorem test_decode_system_4 :
    decode 0b01111111010000001010101100100100#32 = .success (.slbmte 26#5 21#5)
      ∧ decode 0b01111100000000001010101101100100#32 = .success (.slbie 21#5)
      ∧ decode 0b01111111010011000100001110100110#32 = .success (.mtspr 26#5 268#10)
      ∧ decode 0b01111100000000000000001111100100#32 = .success (.slbia)
      ∧ decode 0b01111100000000000000010001101100#32 = .success (.tlbsync)
      ∧ decode 0b01111100001000000000010010101100#32 = .success (.sync 1#2)
      ∧ decode 0b01111100110000001010111010100110#32 = .success (.slbmfev 6#5 21#5)
      ∧ decode 0b01111100000000000000011010101100#32 = .success (.eieio) := by
  decide +kernel

theorem test_decode_system_5 :
    decode 0b01111100110000001010111100100110#32 = .success (.slbmfee 6#5 21#5)
      ∧ decode 0b01111100000010011010111110101100#32 = .success (.icbi 9#5 21#5)
      ∧ decode 0b01111100000010011010111111101100#32 = .success (.dcbz 9#5 21#5) := by
  decide +kernel

theorem test_decode_arithmetic_1 :
    decode 0b00011100110010011000000000000001#32 = .success (.mulli 6#5 9#5 32769#16)
      ∧ decode 0b00100000110010011000000000000001#32 = .success (.subfic 6#5 9#5 32769#16)
      ∧ decode 0b00110000110010011000000000000001#32 = .success (.addic 6#5 9#5 32769#16)
      ∧ decode 0b00110100110010011000000000000001#32 = .success (.addicRc 6#5 9#5 32769#16)
      ∧ decode 0b00111000110000001000000000000001#32 = .success (.li 6#5 32769#16)
      ∧ decode 0b00111000110010011000000000000001#32 = .success (.addi 6#5 9#5 32769#16)
      ∧ decode 0b00111100110000001000000000000001#32 = .success (.lis 6#5 32769#16)
      ∧ decode 0b00111100110010011000000000000001#32 = .success (.addis 6#5 9#5 32769#16) := by
  decide +kernel

theorem test_decode_arithmetic_2 :
    decode 0b01111100110010011010110000010001#32 = .success (.subfc 6#5 9#5 21#5 true true)
      ∧ decode 0b01111100110010011010100000010011#32 = .success (.mulhdu 6#5 9#5 21#5 true)
      ∧ decode 0b01111100110010011010110000010101#32 = .success (.addc 6#5 9#5 21#5 true true)
      ∧ decode 0b01111100110010011010100000010111#32 = .success (.mulhwu 6#5 9#5 21#5 true)
      ∧ decode 0b01111100110010011010110001010001#32 = .success (.subf 6#5 9#5 21#5 true true)
      ∧ decode 0b01111100110010011010100010010011#32 = .success (.mulhd 6#5 9#5 21#5 true)
      ∧ decode 0b01111100110010011010100010010111#32 = .success (.mulhw 6#5 9#5 21#5 true)
      ∧ decode 0b01111100110010010000010011010001#32 = .success (.neg 6#5 9#5 true true) := by
  decide +kernel

theorem test_decode_arithmetic_3 :
    decode 0b01111100110010011010110100010001#32 = .success (.subfe 6#5 9#5 21#5 true true)
      ∧ decode 0b01111100110010011010110100010101#32 = .success (.adde 6#5 9#5 21#5 true true)
      ∧ decode 0b01111100110010010000010110010001#32 = .success (.subfze 6#5 9#5 true true)
      ∧ decode 0b01111100110010010000010110010101#32 = .success (.addze 6#5 9#5 true true)
      ∧ decode 0b01111100110010010000010111010001#32 = .success (.subfme 6#5 9#5 true true)
      ∧ decode 0b01111100110010011010110111010011#32 = .success (.mulld 6#5 9#5 21#5 true true)
      ∧ decode 0b01111100110010010000010111010101#32 = .success (.addme 6#5 9#5 true true)
      ∧ decode 0b01111100110010011010110111010111#32 = .success (.mullw 6#5 9#5 21#5 true true) := by
  decide +kernel

theorem test_decode_arithmetic_4 :
    decode 0b01111100110010011010111000010101#32 = .success (.add 6#5 9#5 21#5 true true)
      ∧ decode 0b01111100110010011010111110010011#32 = .success (.divdu 6#5 9#5 21#5 true true)
      ∧ decode 0b01111100110010011010111110010111#32 = .success (.divwu 6#5 9#5 21#5 true true)
      ∧ decode 0b01111100110010011010111111010011#32 = .success (.divd 6#5 9#5 21#5 true true)
      ∧ decode 0b01111100110010011010111111010111#32 = .success (.divw 6#5 9#5 21#5 true true) := by
  decide +kernel

theorem test_decode_compare_logical_1 :
    decode 0b00101010101010011100000000000011#32 = .success (.cmpli 5#3 true 9#5 49155#16)
      ∧ decode 0b00101110101010011000000000000001#32 = .success (.cmpi 5#3 true 9#5 32769#16)
      ∧ decode 0b01100000000000000000000000000000#32 = .success (.nop)
      ∧ decode 0b01100011010010011100000000000011#32 = .success (.ori 26#5 9#5 49155#16)
      ∧ decode 0b01100111010010011100000000000011#32 = .success (.oris 26#5 9#5 49155#16)
      ∧ decode 0b01101011010010011100000000000011#32 = .success (.xori 26#5 9#5 49155#16)
      ∧ decode 0b01101111010010011100000000000011#32 = .success (.xoris 26#5 9#5 49155#16)
      ∧ decode 0b01110011010010011100000000000011#32 = .success (.andiRc 26#5 9#5 49155#16) := by
  decide +kernel

theorem test_decode_compare_logical_2 :
    decode 0b01110111010010011100000000000011#32 = .success (.andisRc 26#5 9#5 49155#16)
      ∧ decode 0b01111110101010011010100000000000#32 = .success (.cmp 5#3 true 9#5 21#5)
      ∧ decode 0b01111111010010010000000000110101#32 = .success (.cntlzw 26#5 9#5 true)
      ∧ decode 0b01111111010010011010100000111001#32 = .success (.and 26#5 9#5 21#5 true)
      ∧ decode 0b01111110101010011010100001000000#32 = .success (.cmpl 5#3 true 9#5 21#5)
      ∧ decode 0b01111111010010010000000001110101#32 = .success (.cntlzd 26#5 9#5 true)
      ∧ decode 0b01111111010010011010100001111001#32 = .success (.andc 26#5 9#5 21#5 true)
      ∧ decode 0b01111111010010011010100011111001#32 = .success (.nor 26#5 9#5 21#5 true) := by
  decide +kernel

theorem test_decode_compare_logical_3 :
    decode 0b01111111010010011010101000111001#32 = .success (.eqv 26#5 9#5 21#5 true)
      ∧ decode 0b01111111010010011010101001111001#32 = .success (.xor 26#5 9#5 21#5 true)
      ∧ decode 0b01111111010010011010101100111001#32 = .success (.orc 26#5 9#5 21#5 true)
      ∧ decode 0b01111111010010011101001101111001#32 = .success (.mr 26#5 9#5 true)
      ∧ decode 0b01111111010010011010101101111001#32 = .success (.or 26#5 9#5 21#5 true)
      ∧ decode 0b01111111010010011010101110111001#32 = .success (.nand 26#5 9#5 21#5 true)
      ∧ decode 0b01111111010010010000011100110101#32 = .success (.extsh 26#5 9#5 true)
      ∧ decode 0b01111111010010010000011101110101#32 = .success (.extsb 26#5 9#5 true) := by
  decide +kernel

theorem test_decode_compare_logical_4 :
    decode 0b01111111010010010000011110110101#32 = .success (.extsw 26#5 9#5 true) := by
  decide +kernel

theorem test_decode_branch_1 :
    decode 0b01000001100100111111111111110100#32 = .success (.bc 12#5 19#5 16381#14)
      ∧ decode 0b01000001100100111111111111110110#32 = .success (.bca 12#5 19#5 16381#14)
      ∧ decode 0b01000001100100111111111111110101#32 = .success (.bcl 12#5 19#5 16381#14)
      ∧ decode 0b01000001100100111111111111110111#32 = .success (.bcla 12#5 19#5 16381#14)
      ∧ decode 0b01001010000000000000000000000100#32 = .success (.b 8388609#24)
      ∧ decode 0b01001010000000000000000000000110#32 = .success (.ba 8388609#24)
      ∧ decode 0b01001010000000000000000000000101#32 = .success (.bl 8388609#24)
      ∧ decode 0b01001010000000000000000000000111#32 = .success (.bla 8388609#24) := by
  decide +kernel

theorem test_decode_branch_2 :
    decode 0b01001101100100110001000000100000#32 = .success (.bclr 12#5 19#5 2#2)
      ∧ decode 0b01001101100100110001000000100001#32 = .success (.bclrl 12#5 19#5 2#2)
      ∧ decode 0b01001101100100110001010000100000#32 = .success (.bcctr 12#5 19#5 2#2)
      ∧ decode 0b01001101100100110001010000100001#32 = .success (.bcctrl 12#5 19#5 2#2) := by
  decide +kernel

theorem test_decode_rotate_shift_1 :
    decode 0b01010011010010011000100111111001#32 = .success (.rlwimi 26#5 9#5 17#5 7#5 28#5 true)
      ∧ decode 0b01010111010010011000100111111001#32 = .success (.rlwinm 26#5 9#5 17#5 7#5 28#5 true)
      ∧ decode 0b01011111010010011010100111111001#32 = .success (.rlwnm 26#5 9#5 21#5 7#5 28#5 true)
      ∧ decode 0b01111011010010011001001101100011#32 = .success (.rldicl 26#5 9#5 50#6 45#6 true)
      ∧ decode 0b01111011010010011001000011100111#32 = .success (.rldicr 26#5 9#5 50#6 35#6 true)
      ∧ decode 0b01111011010010011001001101101011#32 = .success (.rldic 26#5 9#5 50#6 45#6 true)
      ∧ decode 0b01111011010010011001001101101111#32 = .success (.rldimi 26#5 9#5 50#6 45#6 true)
      ∧ decode 0b01111011010010011010101101110001#32 = .success (.rldcl 26#5 9#5 21#5 45#6 true) := by
  decide +kernel

theorem test_decode_rotate_shift_2 :
    decode 0b01111011010010011010100011110011#32 = .success (.rldcr 26#5 9#5 21#5 35#6 true)
      ∧ decode 0b01111111010010011010100000110001#32 = .success (.slw 26#5 9#5 21#5 true)
      ∧ decode 0b01111111010010011010100000110111#32 = .success (.sld 26#5 9#5 21#5 true)
      ∧ decode 0b01111111010010011001011001110111#32 = .success (.sradi 26#5 9#5 50#6 true)
      ∧ decode 0b01111111010010011010110000110001#32 = .success (.srw 26#5 9#5 21#5 true)
      ∧ decode 0b01111111010010011010110000110111#32 = .success (.srd 26#5 9#5 21#5 true)
      ∧ decode 0b01111111010010011010111000110001#32 = .success (.sraw 26#5 9#5 21#5 true)
      ∧ decode 0b01111111010010011010111000110101#32 = .success (.srad 26#5 9#5 21#5 true) := by
  decide +kernel

theorem test_decode_rotate_shift_3 :
    decode 0b01111111010010011000111001110001#32 = .success (.srawi 26#5 9#5 17#5 true) := by
  decide +kernel

theorem test_decode_load_1 :
    decode 0b10000000110010011111111111110110#32 = .success (.lwz 6#5 9#5 65526#16)
      ∧ decode 0b10000100110010011111111111110110#32 = .success (.lwzu 6#5 9#5 65526#16)
      ∧ decode 0b10001000110010011111111111110110#32 = .success (.lbz 6#5 9#5 65526#16)
      ∧ decode 0b10001100110010011111111111110110#32 = .success (.lbzu 6#5 9#5 65526#16)
      ∧ decode 0b10100000110010011111111111110110#32 = .success (.lhz 6#5 9#5 65526#16)
      ∧ decode 0b10100100110010011111111111110110#32 = .success (.lhzu 6#5 9#5 65526#16)
      ∧ decode 0b10101000110010011111111111110110#32 = .success (.lha 6#5 9#5 65526#16)
      ∧ decode 0b10101100110010011111111111110110#32 = .success (.lhau 6#5 9#5 65526#16) := by
  decide +kernel

theorem test_decode_load_2 :
    decode 0b01111100110010011010100000101010#32 = .success (.ldx 6#5 9#5 21#5)
      ∧ decode 0b01111100110010011010100000101110#32 = .success (.lwzx 6#5 9#5 21#5)
      ∧ decode 0b01111100110010011010100001101010#32 = .success (.ldux 6#5 9#5 21#5)
      ∧ decode 0b01111100110010011010100001101110#32 = .success (.lwzux 6#5 9#5 21#5)
      ∧ decode 0b01111100110010011010100010101110#32 = .success (.lbzx 6#5 9#5 21#5)
      ∧ decode 0b01111100110010011010100011101110#32 = .success (.lbzux 6#5 9#5 21#5)
      ∧ decode 0b01111100110010011010101000101110#32 = .success (.lhzx 6#5 9#5 21#5)
      ∧ decode 0b01111100110010011010101001101110#32 = .success (.lhzux 6#5 9#5 21#5) := by
  decide +kernel

theorem test_decode_load_3 :
    decode 0b01111100110010011010101010101010#32 = .success (.lwax 6#5 9#5 21#5)
      ∧ decode 0b01111100110010011010101010101110#32 = .success (.lhax 6#5 9#5 21#5)
      ∧ decode 0b01111100110010011010101011101010#32 = .success (.lwaux 6#5 9#5 21#5)
      ∧ decode 0b01111100110010011010101011101110#32 = .success (.lhaux 6#5 9#5 21#5)
      ∧ decode 0b01111100110010011010110000101100#32 = .success (.lwbrx 6#5 9#5 21#5)
      ∧ decode 0b01111100110010011010111000101100#32 = .success (.lhbrx 6#5 9#5 21#5)
      ∧ decode 0b11101000110010011000000000000100#32 = .success (.ld 6#5 9#5 8193#14)
      ∧ decode 0b11101000110010011000000000000101#32 = .success (.ldu 6#5 9#5 8193#14) := by
  decide +kernel

theorem test_decode_load_4 :
    decode 0b11101000110010011000000000000110#32 = .success (.lwa 6#5 9#5 8193#14) := by
  decide +kernel

theorem test_decode_store_1 :
    decode 0b10010011010010011111111111110110#32 = .success (.stw 26#5 9#5 65526#16)
      ∧ decode 0b10010111010010011111111111110110#32 = .success (.stwu 26#5 9#5 65526#16)
      ∧ decode 0b10011011010010011111111111110110#32 = .success (.stb 26#5 9#5 65526#16)
      ∧ decode 0b10011111010010011111111111110110#32 = .success (.stbu 26#5 9#5 65526#16)
      ∧ decode 0b10110011010010011111111111110110#32 = .success (.sth 26#5 9#5 65526#16)
      ∧ decode 0b10110111010010011111111111110110#32 = .success (.sthu 26#5 9#5 65526#16)
      ∧ decode 0b01111111010010011010100100101010#32 = .success (.stdx 26#5 9#5 21#5)
      ∧ decode 0b01111111010010011010100100101110#32 = .success (.stwx 26#5 9#5 21#5) := by
  decide +kernel

theorem test_decode_store_2 :
    decode 0b01111111010010011010100101101010#32 = .success (.stdux 26#5 9#5 21#5)
      ∧ decode 0b01111111010010011010100101101110#32 = .success (.stwux 26#5 9#5 21#5)
      ∧ decode 0b01111111010010011010100110101110#32 = .success (.stbx 26#5 9#5 21#5)
      ∧ decode 0b01111111010010011010100111101110#32 = .success (.stbux 26#5 9#5 21#5)
      ∧ decode 0b01111111010010011010101100101110#32 = .success (.sthx 26#5 9#5 21#5)
      ∧ decode 0b01111111010010011010101101101110#32 = .success (.sthux 26#5 9#5 21#5)
      ∧ decode 0b01111111010010011010110100101100#32 = .success (.stwbrx 26#5 9#5 21#5)
      ∧ decode 0b01111111010010011010111100101100#32 = .success (.sthbrx 26#5 9#5 21#5) := by
  decide +kernel

theorem test_decode_store_3 :
    decode 0b11111011010010011000000000000100#32 = .success (.std 26#5 9#5 8193#14)
      ∧ decode 0b11111011010010011000000000000101#32 = .success (.stdu 26#5 9#5 8193#14) := by
  decide +kernel

theorem test_decode_condition_register_1 :
    decode 0b01001110100011000000000000000000#32 = .success (.mcrf 5#3 3#3)
      ∧ decode 0b01001101101101100001100001000010#32 = .success (.crnor 13#5 22#5 3#5)
      ∧ decode 0b01001101101101100001100100000010#32 = .success (.crandc 13#5 22#5 3#5)
      ∧ decode 0b01001101101101100001100110000010#32 = .success (.crxor 13#5 22#5 3#5)
      ∧ decode 0b01001101101101100001100111000010#32 = .success (.crnand 13#5 22#5 3#5)
      ∧ decode 0b01001101101101100001101000000010#32 = .success (.crand 13#5 22#5 3#5)
      ∧ decode 0b01001101101101100001101001000010#32 = .success (.creqv 13#5 22#5 3#5)
      ∧ decode 0b01001101101101100001101101000010#32 = .success (.crorc 13#5 22#5 3#5) := by
  decide +kernel

theorem test_decode_condition_register_2 :
    decode 0b01001101101101100001101110000010#32 = .success (.cror 13#5 22#5 3#5)
      ∧ decode 0b01111100110000000000000000100110#32 = .success (.mfcr 6#5)
      ∧ decode 0b01111100110100100000000000100110#32 = .success (.mfocrf 6#5 32#8)
      ∧ decode 0b01111111010000100000000100100000#32 = .success (.mtcrf 26#5 32#8)
      ∧ decode 0b01111111010100100000000100100000#32 = .success (.mtocrf 26#5 32#8) := by
  decide +kernel

/-! ### Verdicts (95_test_vectors.md section 2) -/

theorem test_verdict_fail :
    decode 0x00000000#32 = .failure .reservedPrimary
      ∧ decode 0x04000000#32 = .failure .reservedPrimary
      ∧ decode 0x14000000#32 = .failure .reservedPrimary
      ∧ decode 0x18000000#32 = .failure .reservedPrimary
      ∧ decode 0x24000000#32 = .failure .reservedPrimary
      ∧ decode 0x58000000#32 = .failure .reservedPrimary
      ∧ decode 0x78000014#32 = .failure .reservedSecondary
      ∧ decode 0x7800001E#32 = .failure .reservedSecondary
      ∧ decode 0xE8000003#32 = .failure .reservedSecondary
      ∧ decode 0xF8000003#32 = .failure .reservedSecondary
      ∧ decode 0x84A00000#32 = .failure .invalidUpdateForm
      ∧ decode 0x84A50000#32 = .failure .invalidUpdateForm
      ∧ decode 0x94000000#32 = .failure .invalidUpdateForm
      ∧ decode 0x7CA530EE#32 = .failure .invalidUpdateForm
      ∧ decode 0xE8A50001#32 = .failure .invalidUpdateForm := by
  decide +kernel

theorem test_verdict_passthrough :
    decode 0xF8000002#32 = .success (.passthrough 0xF8000002#32)
      ∧ decode 0xFC000000#32 = .success (.passthrough 0xFC000000#32)
      ∧ decode 0x10000000#32 = .success (.passthrough 0x10000000#32)
      ∧ decode 0xB8000000#32 = .success (.passthrough 0xB8000000#32)
      ∧ decode 0x7C00007C#32 = .success (.passthrough 0x7C00007C#32)
      ∧ decode 0x4C000002#32 = .success (.passthrough 0x4C000002#32)
      ∧ decode 0x7C00020C#32 = .success (.passthrough 0x7C00020C#32) := by
  decide +kernel

theorem test_verdict_ok :
    decode 0x4C000000#32 = .success (.mcrf 0#3 0#3)
      ∧ decode 0x84C50000#32 = .success (.lwzu 6#5 5#5 0#16)
      ∧ decode 0x94A50000#32 = .success (.stwu 5#5 5#5 0#16)
      ∧ decode 0x7CC530EE#32 = .success (.lbzux 6#5 5#5 6#5)
      ∧ decode 0xE8650001#32 = .success (.ldu 3#5 5#5 0#14)
      ∧ decode 0x7C000000#32 = .success (.cmp 0#3 false 0#5 0#5)
      ∧ decode 0x7C200000#32 = .success (.cmp 0#3 true 0#5 0#5)
      ∧ decode 0x60000000#32 = .success (.nop)
      ∧ decode 0x60000001#32 = .success (.ori 0#5 0#5 1#16)
      ∧ decode 0x60210000#32 = .success (.ori 1#5 1#5 0#16)
      ∧ decode 0x38000000#32 = .success (.li 0#5 0#16)
      ∧ decode 0x38010000#32 = .success (.addi 0#5 1#5 0#16)
      ∧ decode 0x3C000001#32 = .success (.lis 0#5 1#16)
      ∧ decode 0x7C832378#32 = .success (.mr 4#5 3#5 false)
      ∧ decode 0x7C832B78#32 = .success (.or 4#5 3#5 5#5 false)
      ∧ decode 0x7C600026#32 = .success (.mfcr 3#5)
      ∧ decode 0x7C701026#32 = .success (.mfocrf 3#5 1#8)
      ∧ decode 0x7C6802A6#32 = .success (.mfspr 3#5 8#10)
      ∧ decode 0x7C7042A6#32 = .success (.mfspr 3#5 272#10)
      ∧ decode 0x44000002#32 = .success (.sc 0#7)
      ∧ decode 0x7FE00008#32 = .success (.tw 31#5 0#5 0#5)
      ∧ decode 0x7C0004AC#32 = .success (.sync 0#2)
      ∧ decode 0x7C2004AC#32 = .success (.sync 1#2) := by
  decide +kernel

/-! ### Display text (section 3), control-flow edges (section 4) and fields (section 1) -/

/-- The display text of a word, or none when its decode fails. -/
def textOf (w : InsnWord) (addr : Word) : Option String :=
  match decode w with
  | .success i => some (showTokens (textTokens i addr))
  | .failure _ => none

theorem test_text_1 :
    textOf 0x3864FFF0 0x1000 = some "addi r3, r4, 0xfff0"
      ∧ textOf 0x3860FFFF 0x1000 = some "li r3, 0xffff"
      ∧ textOf 0x60000000 0x1000 = some "nop"
      ∧ textOf 0x7C832378 0x1000 = some "mr r3, r4"
      ∧ textOf 0x7C832B78 0x1000 = some "or r3, r4, r5" := by
  decide +kernel

theorem test_text_2 :
    textOf 0x80640008 0x1000 = some "lwz r3, 0x8(r4)"
      ∧ textOf 0xE861FFF8 0x1000 = some "ld r3, 0xfff8(r1)"
      ∧ textOf 0x7C642A15 0x1000 = some "add. r3, r4, r5"
      ∧ textOf 0x7C642E14 0x1000 = some "addo r3, r4, r5"
      ∧ textOf 0x5483402E 0x1000 = some "rlwinm r3, r4, 0x8, 0x0, 0x17" := by
  decide +kernel

theorem test_text_3 :
    textOf 0x2D040005 0x1000 = some "cmpi 0x2, 0x0, r4, 0x5"
      ∧ textOf 0x7C6803A6 0x1000 = some "mtspr 0x8, r3"
      ∧ textOf 0x48000100 0x1000 = some "b 0x1100"
      ∧ textOf 0x4182000C 0x1000 = some "bc 0xc, 0x2, 0x100c"
      ∧ textOf 0x4E800020 0x1000 = some "bclr 0x14, 0x0, 0x0" := by
  decide +kernel

theorem test_text_4 :
    textOf 0x44000002 0x1000 = some "sc"
      ∧ textOf 0x7C0004AC 0x1000 = some "sync 0x0"
      ∧ textOf 0xFC000000 0x1000 = some "undefined" := by
  decide +kernel

theorem test_text_none : textOf 0x00000000 0x1000 = none := by decide +kernel

theorem test_edges :
    edges 0x48000100#32 0x1000#64 = [(.unconditional, 0x1100#64)]
      ∧ edges 0x48000101#32 0x1000#64 = [(.call, 0x1100#64)]
      ∧ edges 0x4BFFFFFC#32 0x0#64 = [(.unconditional, 0xFFFFFFFFFFFFFFFC#64)]
      ∧ edges 0x42800008#32 0x1000#64 = [(.unconditional, 0x1008#64)]
      ∧ edges 0x4182000C#32 0x1000#64 = [(.trueBranch, 0x100C#64), (.falseBranch, 0x1004#64)]
      ∧ edges 0x41820009#32 0x1000#64 = [(.call, 0x1008#64), (.falseBranch, 0x1004#64)]
      ∧ edges 0x42000008#32 0x1000#64 = [(.trueBranch, 0x1008#64), (.falseBranch, 0x1004#64)]
      ∧ edges 0x4E800020#32 0x1000#64 = []
      ∧ edges 0x4D820020#32 0x1000#64 = [(.falseBranch, 0x1004#64)]
      ∧ edges 0x4E800420#32 0x1000#64 = []
      ∧ edges 0x38600001#32 0x1000#64 = []
      ∧ edges 0x44000002#32 0x1000#64 = []
      ∧ edges 0x00000000#32 0x1000#64 = [] := by
  decide +kernel

/-- The value a form's extractor gives a field of a word. -/
def fieldOf (w : InsnWord) (addr : Word) (name : FieldName) : Option Nat :=
  (decoderBlock w addr).bind fun o => (o.fields.find? fun p => p.1 = name).map fun p => p.2

/-- Fields of the form that the instruction ignores (30_encoding.md R101, R134): RB = 31 of extsw, Rc of cmp, FXM = 0x55
of mfcr (R113, R260), LK of crand; the displacement pattern of ld -8(r1) (R164); the split shift 33 of sradi (R115). -/
theorem test_fields :
    fieldOf 0x7C83FFB4 0 .rb = some 31 ∧ fieldOf 0x7C83FFB4 0 .rs = some 4 ∧ fieldOf 0x7C83FFB4 0 .ra = some 3
      ∧ fieldOf 0x7C000001 0 .rc = some 1 ∧ fieldOf 0x7C655026 0 .one = some 0 ∧ fieldOf 0x7C655026 0 .fxm = some 0x55
      ∧ fieldOf 0x4C400A03 0 .lk = some 1 ∧ fieldOf 0xE861FFF8 0 .d = some 0xFFF8
      ∧ fieldOf 0xE861FFF8 0 .ds = some 0x3FFE ∧ fieldOf 0x7C830E76 0 .shLo = some 1
      ∧ fieldOf 0x7C830E76 0 .shHi = some 1 ∧ fieldOf 0x7C830E76 0 .sh = some 33
      ∧ fieldOf 0x7C6802A6 0 .spr = some 8 := by decide +kernel

/-- 30_encoding.md R138: SI of addi -16 (95_test_vectors.md S2), mb = 37 of rldcl, MB = 10 and ME = 20 of rlwnm. -/
theorem test_immediates :
    (decoderBlock 0x3864FFF0 0).bind (fun o => o.imm) = some 0xFFFFFFFFFFFFFFF0
      ∧ (decoderBlock 0x78832970 0).bind (fun o => o.imm) = some 37
      ∧ (decoderBlock 0x5C832AA8 0).map (fun o => (o.imm, o.immOperands)) = some (some 10, [10, 20]) := by
  decide +kernel

/-- 40_branch.md R213: "always" with and without the hints BO1, BO3 and BO4, and a CR test with and without the untested
BO3, give one branch record each; the tested BO1 and BO3 are reported (R200). -/
theorem test_branch_hints :
    (decoderBlock 0x42800008 0x1000).map (fun o => o.branch) = (decoderBlock 0x43E00008 0x1000).map (fun o => o.branch)
      ∧ (decoderBlock 0x4182000C 0x1000).map (fun o => o.branch)
        = (decoderBlock 0x41C2000C 0x1000).map (fun o => o.branch)
      ∧ (decoderBlock 0x4182000C 0x1000).bind (fun o => o.branch.map fun b => (b.crTest, b.crVal)) = some (true, true)
      ∧ (decoderBlock 0x4240FFFC 0x1000).bind (fun o => o.branch.map fun b => (b.ctrDec, b.ctrZero))
        = some (true, true) := by
  decide +kernel

theorem test_sign_extension : sext 0xFFFF#16 = 0xFFFFFFFFFFFFFFFF#64 ∧ sext 1#16 = 1#64
    ∧ signExtendField 16 0xFFFF#32 = 0xFFFFFFFF#32 := by decide +kernel

theorem test_mask : rotateMask 60 3 = 0xF00000000000000F#64 ∧ rotateMask 63 0 = 0x8000000000000001#64
    ∧ rotateMask 1 0 = 0xFFFFFFFFFFFFFFFF#64 := by decide +kernel

/-! ### Arithmetic (section 5) -/

theorem test_add :
    let r := run 0x7C642A14 (regs [(4, 0xFFFFFFFFFFFFFFFF), (5, 0x1)])
    gprOf r 3 = some 0x0 := by
  decide +kernel

theorem test_add_second :
    let r := run 0x7C642A15 (regs [(4, 0x7FFFFFFFFFFFFFFF), (5, 0x1)])
    gprOf r 3 = some 0x8000000000000000 ∧ crOf r = some 0x80000000 := by
  decide +kernel

theorem test_subf :
    let r := run 0x7C642850 (regs [(4, 0x5), (5, 0x3)])
    gprOf r 3 = some 0xFFFFFFFFFFFFFFFE := by
  decide +kernel

theorem test_neg :
    let r := run 0x7C6400D0 (regs [(4, 0x8000000000000000)])
    gprOf r 3 = some 0x8000000000000000 := by
  decide +kernel

theorem test_neg_second :
    let r := run 0x7C6400D0 (regs [(4, 0x0)])
    gprOf r 3 = some 0x0 := by
  decide +kernel

theorem test_mulld :
    let r := run 0x7C6429D2 (regs [(4, 0x100000000), (5, 0x100000000)])
    gprOf r 3 = some 0x0 := by
  decide +kernel

theorem test_mullw :
    let r := run 0x7C6429D6 (regs [(4, 0xFFFFFFFF), (5, 0xFFFFFFFF)])
    gprOf r 3 = some 0x1 := by
  decide +kernel

theorem test_mulhd :
    let r := run 0x7C642892 (regs [(4, 0xFFFFFFFFFFFFFFFF), (5, 0x2)])
    gprOf r 3 = some 0xFFFFFFFFFFFFFFFF := by
  decide +kernel

theorem test_mulhdu :
    let r := run 0x7C642812 (regs [(4, 0xFFFFFFFFFFFFFFFF), (5, 0x2)])
    gprOf r 3 = some 0x1 := by
  decide +kernel

theorem test_divd :
    let r := run 0x7C642BD2 (regs [(4, 0xFFFFFFFFFFFFFFF9), (5, 0x2)])
    gprOf r 3 = some 0xFFFFFFFFFFFFFFFD := by
  decide +kernel

theorem test_divd_second :
    let r := run 0x7C642BD2 (regs [(4, 0x7), (5, 0xFFFFFFFFFFFFFFFE)])
    gprOf r 3 = some 0xFFFFFFFFFFFFFFFD := by
  decide +kernel

theorem test_divdu :
    let r := run 0x7C642B92 (regs [(4, 0xFFFFFFFFFFFFFFFF), (5, 0x2)])
    gprOf r 3 = some 0x7FFFFFFFFFFFFFFF := by
  decide +kernel

theorem test_divwu :
    let r := run 0x7C642B96 (regs [(4, 0x1FFFFFFFF), (5, 0x0)])
    drawsOf r = some 1 := by
  decide +kernel

theorem test_mulli :
    let r := run 0x1C64FFFD (regs [(4, 0x5)])
    gprOf r 3 = some 0xFFFFFFFFFFFFFFF1 := by
  decide +kernel

theorem test_subfic :
    let r := run 0x20640000 (regs [(4, 0x1)])
    gprOf r 3 = some 0xFFFFFFFFFFFFFFFF ∧ (nextOf r).map (fun t => t.ca) = some false := by
  decide +kernel

theorem test_addic :
    let r := run 0x3064FFFF (regs [(4, 0x0)])
    gprOf r 3 = some 0xFFFFFFFFFFFFFFFF ∧ (nextOf r).map (fun t => t.ca) = some false := by
  decide +kernel

theorem test_adde :
    let r := run 0x7C642914 { (regs [(4, 0x1), (5, 0x2)]) with ca := true }
    gprOf r 3 = some 0x4 ∧ (nextOf r).map (fun t => t.ca) = some true := by
  decide +kernel

theorem test_addze :
    let r := run 0x7C640194 { (regs [(4, 0x1)]) with ca := true }
    gprOf r 3 = some 0x2 ∧ (nextOf r).map (fun t => t.ca) = some true := by
  decide +kernel

theorem test_addme :
    let r := run 0x7C6401D4 (regs [(4, 0x1)])
    gprOf r 3 = some 0x0 ∧ (nextOf r).map (fun t => t.ca) = some false := by
  decide +kernel

theorem test_subfe :
    let r := run 0x7C642910 { (regs [(4, 0x1), (5, 0x5)]) with ca := true }
    gprOf r 3 = some 0x4 ∧ (nextOf r).map (fun t => t.ca) = some true := by
  decide +kernel

theorem test_subfze :
    let r := run 0x7C640190 { (regs [(4, 0x0)]) with ca := true }
    gprOf r 3 = some 0x0 ∧ (nextOf r).map (fun t => t.ca) = some true := by
  decide +kernel

theorem test_subfme :
    let r := run 0x7C6401D0 (regs [(4, 0x0)])
    gprOf r 3 = some 0xFFFFFFFFFFFFFFFE ∧ (nextOf r).map (fun t => t.ca) = some false := by
  decide +kernel

theorem test_li :
    let r := run 0x3860FFFF State.reset
    gprOf r 3 = some 0xFFFFFFFFFFFFFFFF := by
  decide +kernel

theorem test_li_second :
    let r := run 0x38600001 (regs [(0, 0x64)])
    gprOf r 3 = some 0x1 := by
  decide +kernel

theorem test_addis :
    let r := run 0x3C648000 (regs [(4, 0x0)])
    gprOf r 3 = some 0xFFFFFFFF80000000 := by
  decide +kernel

/-! ### Compares (section 6) -/

theorem test_cmp :
    let r := run 0x7C242800 (regs [(4, 0xFFFFFFFFFFFFFFFF), (5, 0x1)])
    crOf r = some 0x80000000 := by
  decide +kernel

theorem test_cmpl :
    let r := run 0x7C242840 (regs [(4, 0xFFFFFFFFFFFFFFFF), (5, 0x1)])
    crOf r = some 0x40000000 := by
  decide +kernel

theorem test_cmp_second :
    let r := run 0x7F842800 (regs [(4, 0x1FFFFFFFF), (5, 0xFFFFFFFF)])
    crOf r = some 0x2 := by
  decide +kernel

theorem test_cmpl_second :
    let r := run 0x7C042840 (regs [(4, 0x100000000), (5, 0x1)])
    crOf r = some 0x80000000 := by
  decide +kernel

theorem test_cmpi :
    let r := run 0x2C24FFFF (regs [(4, 0xFFFFFFFFFFFFFFFF)])
    crOf r = some 0x20000000 := by
  decide +kernel

theorem test_cmpli :
    let r := run 0x28A4FFFF (regs [(4, 0xFFFF)])
    crOf r = some 0x2000000 := by
  decide +kernel

/-! ### Logical (section 7) -/

theorem test_andiRc :
    let r := run 0x70830000 (regs [(4, 0xFFFFFFFFFFFFFFFF)])
    gprOf r 3 = some 0x0 ∧ crOf r = some 0x20000000 := by
  decide +kernel

theorem test_andisRc :
    let r := run 0x74838000 (regs [(4, 0xFFFFFFFFFFFFFFFF)])
    gprOf r 3 = some 0x80000000 ∧ crOf r = some 0x40000000 := by
  decide +kernel

theorem test_ori :
    let r := run 0x6083FFFF (regs [(4, 0x0)])
    gprOf r 3 = some 0xFFFF := by
  decide +kernel

theorem test_oris :
    let r := run 0x6483FFFF (regs [(4, 0x0)])
    gprOf r 3 = some 0xFFFF0000 := by
  decide +kernel

theorem test_xoris :
    let r := run 0x6C838000 (regs [(4, 0x0)])
    gprOf r 3 = some 0x80000000 := by
  decide +kernel

theorem test_nand :
    let r := run 0x7C8323B9 (regs [(4, 0xFFFFFFFFFFFFFFFF)])
    gprOf r 3 = some 0x0 ∧ crOf r = some 0x20000000 := by
  decide +kernel

theorem test_nor :
    let r := run 0x7C8328F8 (regs [(4, 0x0), (5, 0x0)])
    gprOf r 3 = some 0xFFFFFFFFFFFFFFFF := by
  decide +kernel

theorem test_eqv :
    let r := run 0x7C832A38 (regs [(4, 0xF0), (5, 0xFF)])
    gprOf r 3 = some 0xFFFFFFFFFFFFFFF0 := by
  decide +kernel

theorem test_orc :
    let r := run 0x7C832B38 (regs [(4, 0x0), (5, 0xFFFFFFFFFFFFFFFF)])
    gprOf r 3 = some 0x0 := by
  decide +kernel

theorem test_andc :
    let r := run 0x7C832878 (regs [(4, 0xFF), (5, 0xF)])
    gprOf r 3 = some 0xF0 := by
  decide +kernel

theorem test_extsb :
    let r := run 0x7C830774 (regs [(4, 0x1280)])
    gprOf r 3 = some 0xFFFFFFFFFFFFFF80 := by
  decide +kernel

theorem test_extsh :
    let r := run 0x7C830735 (regs [(4, 0x8000)])
    gprOf r 3 = some 0xFFFFFFFFFFFF8000 ∧ crOf r = some 0x80000000 := by
  decide +kernel

theorem test_extsw :
    let r := run 0x7C8307B4 (regs [(4, 0x80000000)])
    gprOf r 3 = some 0xFFFFFFFF80000000 := by
  decide +kernel

theorem test_cntlzw :
    let r := run 0x7C830034 (regs [(4, 0xFFFFFFFF00000000)])
    gprOf r 3 = some 0x20 := by
  decide +kernel

theorem test_cntlzd :
    let r := run 0x7C830074 (regs [(4, 0x0)])
    gprOf r 3 = some 0x40 := by
  decide +kernel

theorem test_cntlzd_second :
    let r := run 0x7C830074 (regs [(4, 0x1)])
    gprOf r 3 = some 0x3F := by
  decide +kernel

/-! ### Rotates (section 8) -/

theorem test_rlwinm :
    let r := run 0x548307C0 (regs [(4, 0xFFFFFFFFFFFFFFFF)])
    gprOf r 3 = some 0xFFFFFFFF80000001 := by
  decide +kernel

theorem test_rlwinm_second :
    let r := run 0x5483403E (regs [(4, 0xAABBCCDD11223344)])
    gprOf r 3 = some 0x22334411 := by
  decide +kernel

theorem test_rlwnm :
    let r := run 0x5C83283E (regs [(4, 0x80000001), (5, 0x21)])
    gprOf r 3 = some 0x3 := by
  decide +kernel

theorem test_rlwimi :
    let r := run 0x5083442E (regs [(3, 0xFFFFFFFFFFFFFFFF), (4, 0x12)])
    gprOf r 3 = some 0xFFFFFFFFFFFF12FF := by
  decide +kernel

theorem test_rldicl :
    let r := run 0x78830020 (regs [(4, 0xFFFFFFFFFFFFFFFF)])
    gprOf r 3 = some 0xFFFFFFFF := by
  decide +kernel

theorem test_rldicl_second :
    let r := run 0x7883F802 (regs [(4, 0x1)])
    gprOf r 3 = some 0x8000000000000000 := by
  decide +kernel

theorem test_rldicr :
    let r := run 0x788326E4 (regs [(4, 0xF00000000000000F)])
    gprOf r 3 = some 0xF0 := by
  decide +kernel

theorem test_rldic :
    let r := run 0x78834008 (regs [(4, 0xFF000000000000FF)])
    gprOf r 3 = some 0xFF00 := by
  decide +kernel

theorem test_rldimi :
    let r := run 0x7883000E (regs [(3, 0x11111111), (4, 0x22222222)])
    gprOf r 3 = some 0x2222222211111111 := by
  decide +kernel

theorem test_rldcl :
    let r := run 0x78832810 (regs [(4, 0x8000000000000000), (5, 0x41)])
    gprOf r 3 = some 0x1 := by
  decide +kernel

/-! ### Shifts (section 9) -/

theorem test_slw :
    let r := run 0x7C832830 (regs [(4, 0x1), (5, 0x3F)])
    gprOf r 3 = some 0x0 := by
  decide +kernel

theorem test_srw :
    let r := run 0x7C832C30 (regs [(4, 0xFFFFFFFFFFFFFFFF), (5, 0x0)])
    gprOf r 3 = some 0xFFFFFFFF := by
  decide +kernel

theorem test_sraw :
    let r := run 0x7C832E30 (regs [(4, 0x7FFFFFFF), (5, 0x20)])
    gprOf r 3 = some 0x0 := by
  decide +kernel

theorem test_srawi :
    let r := run 0x7C830670 (regs [(4, 0x80000000)])
    gprOf r 3 = some 0xFFFFFFFF80000000 := by
  decide +kernel

theorem test_sld :
    let r := run 0x7C832836 (regs [(4, 0x1), (5, 0x40)])
    gprOf r 3 = some 0x0 := by
  decide +kernel

theorem test_sld_second :
    let r := run 0x7C832836 (regs [(4, 0x1), (5, 0x81)])
    gprOf r 3 = some 0x2 := by
  decide +kernel

theorem test_srad :
    let r := run 0x7C832E34 (regs [(4, 0x4000000000000000), (5, 0x40)])
    gprOf r 3 = some 0x0 := by
  decide +kernel

theorem test_sradi :
    let r := run 0x7C83FE76 (regs [(4, 0x8000000000000000)])
    gprOf r 3 = some 0xFFFFFFFFFFFFFFFF := by
  decide +kernel

/-! ### Loads and stores (section 10) -/

theorem test_lbz :
    let r := run 0x88640000 (withData (regs [(4, 0x2000)]))
    gprOf r 3 = some 0x80 := by
  decide +kernel

theorem test_lha :
    let r := run 0xA8640000 (withData (regs [(4, 0x2000)]))
    gprOf r 3 = some 0xFFFFFFFFFFFF8081 := by
  decide +kernel

theorem test_lhz :
    let r := run 0xA0640002 (withData (regs [(4, 0x2000)]))
    gprOf r 3 = some 0x8283 := by
  decide +kernel

theorem test_lwa :
    let r := run 0xE864000A (withData (regs [(4, 0x2000)]))
    gprOf r 3 = some 0xFFFFFFFFFEDCBA98 := by
  decide +kernel

theorem test_lwz :
    let r := run 0x8064FFF8 (withData (regs [(4, 0x2010)]))
    gprOf r 3 = some 0xFEDCBA98 := by
  decide +kernel

theorem test_ld :
    let r := run 0xE8640000 (withData (regs [(4, 0x2000)]))
    gprOf r 3 = some 0x8081828384858687 := by
  decide +kernel

theorem test_ldu :
    let r := run 0xE8640009 (withData (regs [(4, 0x2000)]))
    gprOf r 3 = some 0xFEDCBA9876543210 ∧ gprOf r 4 = some 0x2008 := by
  decide +kernel

theorem test_lhbrx :
    let r := run 0x7C642E2C (withData (regs [(4, 0x2000), (5, 0x0)]))
    gprOf r 3 = some 0x8180 := by
  decide +kernel

theorem test_lwbrx :
    let r := run 0x7C602C2C (withData (regs [(5, 0x2008)]))
    gprOf r 3 = some 0x98BADCFE := by
  decide +kernel

theorem test_lwaux :
    let r := run 0x7C642AEA (withData (regs [(4, 0x2000), (5, 0x4)]))
    gprOf r 3 = some 0xFFFFFFFF84858687 ∧ gprOf r 4 = some 0x2004 := by
  decide +kernel

theorem test_lbzx :
    let r := run 0x7C6028AE (withData (regs [(0, 0x999), (5, 0x2001)]))
    gprOf r 3 = some 0x81 := by
  decide +kernel

theorem test_stb :
    let r := run 0x98640000 (withData (regs [(3, 0x1234), (4, 0x3000)]))
    bytesOf r 0x3000 1 = some [0x34] := by
  decide +kernel

theorem test_sth :
    let r := run 0xB0640000 (withData (regs [(3, 0x1234), (4, 0x3000)]))
    bytesOf r 0x3000 2 = some [0x12, 0x34] := by
  decide +kernel

theorem test_stw :
    let r := run 0x90640000 (withData (regs [(3, 0xAABBCCDD11223344), (4, 0x3000)]))
    bytesOf r 0x3000 4 = some [0x11, 0x22, 0x33, 0x44] := by
  decide +kernel

theorem test_std :
    let r := run 0xF8640000 (withData (regs [(3, 0x102030405060708), (4, 0x3000)]))
    bytesOf r 0x3000 8 = some [0x01, 0x02, 0x03, 0x04, 0x05, 0x06, 0x07, 0x08] := by
  decide +kernel

theorem test_sthbrx :
    let r := run 0x7C642F2C (withData (regs [(3, 0x1234), (4, 0x3000), (5, 0x0)]))
    bytesOf r 0x3000 2 = some [0x34, 0x12] := by
  decide +kernel

theorem test_stwbrx :
    let r := run 0x7C642D2C (withData (regs [(3, 0x11223344), (4, 0x3000), (5, 0x0)]))
    bytesOf r 0x3000 4 = some [0x44, 0x33, 0x22, 0x11] := by
  decide +kernel

theorem test_stdu :
    let r := run 0xF821FFF1 (withData (regs [(1, 0x3010)]))
    gprOf r 1 = some 0x3000 ∧ bytesOf r 0x3000 8 = some [0x00, 0x00, 0x00, 0x00, 0x00, 0x00, 0x30, 0x10] := by
  decide +kernel

theorem test_stbux :
    let r := run 0x7C6429EE (withData (regs [(3, 0xFF), (4, 0x3000), (5, 0x3)]))
    gprOf r 4 = some 0x3003 ∧ bytesOf r 0x3003 1 = some [0xFF] := by
  decide +kernel

/-! ### Branches (section 11) -/

theorem test_b :
    let r := run 0x48000100 State.reset
    pcOf r = some 0x1100 := by
  decide +kernel

theorem test_b_second :
    let r := run 0x4BFFFFFC State.reset
    pcOf r = some 0xFFC := by
  decide +kernel

theorem test_ba :
    let r := run 0x48000102 State.reset
    pcOf r = some 0x100 := by
  decide +kernel

theorem test_bla :
    let r := run 0x4A000003 State.reset
    pcOf r = some 0xFFFFFFFFFE000000 ∧ lrOf r = some 0x1004 := by
  decide +kernel

theorem test_bc :
    let r := run 0x42000008 { State.reset with ctr := some 0x1 }
    pcOf r = some 0x1004 ∧ ctrOf r = some 0x0 := by
  decide +kernel

theorem test_bc_second :
    let r := run 0x42000008 { State.reset with ctr := some 0x2 }
    pcOf r = some 0x1008 ∧ ctrOf r = some 0x1 := by
  decide +kernel

theorem test_bcl :
    let r := run 0x429F0005 State.reset
    pcOf r = some 0x1004 ∧ lrOf r = some 0x1004 := by
  decide +kernel

theorem test_bcl_second :
    let r := run 0x41810009 { State.reset with lr := some 0x5555, cr := 0x0 }
    pcOf r = some 0x1004 ∧ lrOf r = some 0x5555 := by
  decide +kernel

theorem test_bclr :
    let r := run 0x4E800020 { State.reset with lr := some 0x4003 }
    pcOf r = some 0x4000 ∧ lrOf r = some 0x4003 := by
  decide +kernel

theorem test_bclrl :
    let r := run 0x4E800021 { State.reset with lr := some 0x4000 }
    pcOf r = some 0x4000 ∧ lrOf r = some 0x1004 := by
  decide +kernel

theorem test_bclr_second :
    let r := run 0x4E000020 { State.reset with ctr := some 0x2, lr := some 0x4000 }
    pcOf r = some 0x4000 ∧ lrOf r = some 0x4000 ∧ ctrOf r = some 0x1 := by
  decide +kernel

theorem test_bcctr :
    let r := run 0x4E800420 { State.reset with ctr := some 0x4000 }
    pcOf r = some 0x4000 ∧ ctrOf r = some 0x4000 := by
  decide +kernel

theorem test_bcctr_second :
    let r := run 0x4D860420 { State.reset with ctr := some 0x4000, cr := 0x0 }
    pcOf r = some 0x1004 ∧ ctrOf r = some 0x4000 := by
  decide +kernel

/-! ### Condition register (section 12) -/

theorem test_crxor :
    let r := run 0x4CC63182 { State.reset with cr := 0xFFFFFFFF }
    crOf r = some 0xFDFFFFFF := by
  decide +kernel

theorem test_creqv :
    let r := run 0x4C000242 { State.reset with cr := 0x0 }
    crOf r = some 0x80000000 := by
  decide +kernel

theorem test_crnor :
    let r := run 0x4C010842 { State.reset with cr := 0x40000000 }
    crOf r = some 0x40000000 := by
  decide +kernel

theorem test_crandc :
    let r := run 0x4FE00902 { State.reset with cr := 0x80000000 }
    crOf r = some 0x80000001 := by
  decide +kernel

theorem test_crorc :
    let r := run 0x4C431B42 { State.reset with cr := 0x0 }
    crOf r = some 0x20000000 := by
  decide +kernel

theorem test_mcrf :
    let r := run 0x4F800000 { State.reset with cr := 0xA0000000 }
    crOf r = some 0xA000000A := by
  decide +kernel

theorem test_mfcr :
    let r := run 0x7C600026 { State.reset with cr := 0x12345678 }
    gprOf r 3 = some 0x12345678 := by
  decide +kernel

theorem test_mtcrf :
    let r := run 0x7C881120 { (regs [(4, 0xAAAAAAAA)]) with cr := 0x11111111 }
    crOf r = some 0xA111111A := by
  decide +kernel

theorem test_mtcrf_second :
    let r := run 0x7C8FF120 { (regs [(4, 0xFFFFFFFF00000000)]) with cr := 0x11111111 }
    crOf r = some 0x00000000 := by
  decide +kernel

/-! ### System (section 13) -/

theorem test_mfspr :
    let r := run 0x7C6802A6 { State.reset with lr := some 0x2004 }
    gprOf r 3 = some 0x2004 := by
  decide +kernel

theorem test_mtspr :
    let r := run 0x7C6803A6 (regs [(3, 0x5000)])
    lrOf r = some 0x5000 := by
  decide +kernel

theorem test_mtspr_second :
    let r := run 0x7C6903A6 (regs [(3, 0xA)])
    ctrOf r = some 0xA := by
  decide +kernel

theorem test_mfspr_second : faultOf (run 0x7C6902A6 { State.reset with ctr := none }) = some .unsetRegister := by decide +kernel

theorem test_mftb :
    let r := run 0x7C6C42E6 State.reset
    drawsOf r = some 1 := by
  decide +kernel

theorem test_sync : nextOf (run 0x7C0004AC State.reset) = some (State.reset.withFetchWord 32 0x7C0004AC).advance := by decide +kernel

theorem test_sync_second : nextOf (run 0x7C2004AC State.reset) = some (State.reset.withFetchWord 32 0x7C2004AC).advance := by decide +kernel

theorem test_isync : nextOf (run 0x4C00012C State.reset) = some (State.reset.withFetchWord 32 0x4C00012C).advance := by decide +kernel

theorem test_dcbz : refusalOf (run 0x7C042FEC State.reset) = some (.unmodelled 8) := by decide +kernel

theorem test_lwarx : refusalOf (run 0x7C642828 State.reset) = some (.unmodelled 18) := by decide +kernel

theorem test_stwcx : refusalOf (run 0x7C64292D State.reset) = some (.unmodelled 20) := by decide +kernel

theorem test_mfmsr : refusalOf (run 0x7C0000A6 State.reset) = some (.unmodelled 22) := by decide +kernel

theorem test_rfid : refusalOf (run 0x4C000024 State.reset) = some (.unmodelled 25) := by decide +kernel

theorem test_tw : faultOf (run 0x7FE00008 (regs [(0, 0x0)])) = some (.trapTaken 0x1000) := by decide +kernel

theorem test_tw_second : nextOf (run 0x7C000008 (regs [(0, 0x0)])) = some ((regs [(0, 0x0)]).withFetchWord 32 0x7C000008).advance := by decide +kernel

theorem test_twi : faultOf (run 0x0C830000 (regs [(3, 0x100000000)])) = some (.trapTaken 0x1000) := by decide +kernel

theorem test_twi_second : nextOf (run 0x0C830000 (regs [(3, 0x1)])) = some ((regs [(3, 0x1)]).withFetchWord 32 0x0C830000).advance := by decide +kernel

theorem test_td : faultOf (run 0x7CA32088 (regs [(3, 0x2), (4, 0x1)])) = some (.trapTaken 0x1000) := by decide +kernel

theorem test_td_second : nextOf (run 0x7CA32088 (regs [(3, 0x0), (4, 0x1)])) = some ((regs [(3, 0x0), (4, 0x1)]).withFetchWord 32 0x7CA32088).advance := by decide +kernel

theorem test_tdi : faultOf (run 0x0A030000 (regs [(3, 0xFFFFFFFFFFFFFFFF)])) = some (.trapTaken 0x1000) := by decide +kernel

theorem test_tdi_second : nextOf (run 0x0A030000 (regs [(3, 0x0)])) = some ((regs [(3, 0x0)]).withFetchWord 32 0x0A030000).advance := by decide +kernel

theorem test_sc : faultOf (run 0x44000002 State.reset) = some (.systemCall 0) := by decide +kernel

theorem test_sc_second : faultOf (run 0x44000022 State.reset) = some (.systemCall 1) := by decide +kernel

theorem test_passthrough : refusalOf (run 0xFC000000 State.reset) = some (.passthrough) := by decide +kernel

theorem test_reserved : faultOf (run 0x00000000 State.reset) = some (.illegalInstruction 0x00000000) := by decide +kernel

/-! ### Instructions that the vectors leave out, by hand calculation from their rules -/

theorem test_addc :
    let r := run 0x7C642814 (regs [(4, 0xFFFFFFFFFFFFFFFF), (5, 0x2)])
    gprOf r 3 = some 0x1 := by
  decide +kernel

theorem test_subfc :
    let r := run 0x7C642810 (regs [(4, 0x2), (5, 0x1)])
    gprOf r 3 = some 0xFFFFFFFFFFFFFFFF := by
  decide +kernel

theorem test_addicRc :
    let r := run 0x3464FFFF (regs [(4, 0x1)])
    gprOf r 3 = some 0x0 := by
  decide +kernel

theorem test_addi :
    let r := run 0x38648000 (regs [(4, 0x1)])
    gprOf r 3 = some 0xFFFFFFFFFFFF8001 := by
  decide +kernel

theorem test_lis :
    let r := run 0x3C608001 State.reset
    gprOf r 3 = some 0xFFFFFFFF80010000 := by
  decide +kernel

theorem test_cmpi_second :
    let r := run 0x2D04FFFF (regs [(4, 0x0)])
    crOf r = some 0x400000 := by
  decide +kernel

theorem test_cmpli_second :
    let r := run 0x2984FFFF (regs [(4, 0x100000000)])
    crOf r = some 0x80000 := by
  decide +kernel

theorem test_and :
    let r := run 0x7C832839 (regs [(4, 0xF0F0), (5, 0xFF00)])
    gprOf r 3 = some 0xF000 ∧ crOf r = some 0x40000000 := by
  decide +kernel

theorem test_or :
    let r := run 0x7C832B78 (regs [(4, 0xF0), (5, 0xF)])
    gprOf r 3 = some 0xFF := by
  decide +kernel

theorem test_xor :
    let r := run 0x7C832A78 (regs [(4, 0xFF), (5, 0xF)])
    gprOf r 3 = some 0xF0 := by
  decide +kernel

theorem test_mr :
    let r := run 0x7C832379 (regs [(4, 0x8000000000000000)])
    gprOf r 3 = some 0x8000000000000000 ∧ crOf r = some 0x80000000 := by
  decide +kernel

theorem test_xori :
    let r := run 0x68838001 (regs [(4, 0xFFFFFFFFFFFFFFFF)])
    gprOf r 3 = some 0xFFFFFFFFFFFF7FFE := by
  decide +kernel

theorem test_nop :
    let r := run 0x60000000 State.reset
    pcOf r = some 0x1004 := by
  decide +kernel

theorem test_srd :
    let r := run 0x7C832C36 (regs [(4, 0x8000000000000000), (5, 0x3F)])
    gprOf r 3 = some 0x1 := by
  decide +kernel

theorem test_srad_second :
    let r := run 0x7C832E34 (regs [(4, 0x8000000000000000), (5, 0x41)])
    gprOf r 3 = some 0xFFFFFFFFFFFFFFFF := by
  decide +kernel

theorem test_sraw_second :
    let r := run 0x7C832E30 (regs [(4, 0x80000000), (5, 0x4)])
    gprOf r 3 = some 0xFFFFFFFFF8000000 := by
  decide +kernel

theorem test_srawi_second :
    let r := run 0x7C83FE70 (regs [(4, 0x7FFFFFFF80000000)])
    gprOf r 3 = some 0xFFFFFFFFFFFFFFFF := by
  decide +kernel

theorem test_rldcr :
    let r := run 0x78832FF2 (regs [(4, 0x1), (5, 0x4)])
    gprOf r 3 = some 0x2000000000 := by
  decide +kernel

theorem test_lbzu :
    let r := run 0x8C640001 (withData (regs [(4, 0x2000)]))
    gprOf r 3 = some 0x81 ∧ gprOf r 4 = some 0x2001 := by
  decide +kernel

theorem test_lbzux :
    let r := run 0x7C6428EE (withData (regs [(4, 0x2000), (5, 0xF)]))
    gprOf r 3 = some 0x10 ∧ gprOf r 4 = some 0x200F := by
  decide +kernel

theorem test_lhzu :
    let r := run 0xA464FFFE (withData (regs [(4, 0x2010)]))
    gprOf r 3 = some 0x3210 ∧ gprOf r 4 = some 0x200E := by
  decide +kernel

theorem test_lhzx :
    let r := run 0x7C642A2E (withData (regs [(4, 0x2000), (5, 0x8)]))
    gprOf r 3 = some 0xFEDC := by
  decide +kernel

theorem test_lhzux :
    let r := run 0x7C642A6E (withData (regs [(4, 0x2000), (5, 0xA)]))
    gprOf r 3 = some 0xBA98 ∧ gprOf r 4 = some 0x200A := by
  decide +kernel

theorem test_lhau :
    let r := run 0xAC640008 (withData (regs [(4, 0x2000)]))
    gprOf r 3 = some 0xFFFFFFFFFFFFFEDC ∧ gprOf r 4 = some 0x2008 := by
  decide +kernel

theorem test_lhax :
    let r := run 0x7C642AAE (withData (regs [(4, 0x2000), (5, 0xE)]))
    gprOf r 3 = some 0x3210 := by
  decide +kernel

theorem test_lhaux :
    let r := run 0x7C642AEE (withData (regs [(4, 0x2000), (5, 0x2)]))
    gprOf r 3 = some 0xFFFFFFFFFFFF8283 ∧ gprOf r 4 = some 0x2002 := by
  decide +kernel

theorem test_lwzu :
    let r := run 0x84640004 (withData (regs [(4, 0x2000)]))
    gprOf r 3 = some 0x84858687 ∧ gprOf r 4 = some 0x2004 := by
  decide +kernel

theorem test_lwzx :
    let r := run 0x7C64282E (withData (regs [(4, 0x2000), (5, 0x8)]))
    gprOf r 3 = some 0xFEDCBA98 := by
  decide +kernel

theorem test_lwzux :
    let r := run 0x7C64286E (withData (regs [(4, 0x2000), (5, 0xC)]))
    gprOf r 3 = some 0x76543210 ∧ gprOf r 4 = some 0x200C := by
  decide +kernel

theorem test_lwax :
    let r := run 0x7C602AAA (withData (regs [(0, 0x4), (5, 0x2000)]))
    gprOf r 3 = some 0xFFFFFFFF80818283 := by
  decide +kernel

theorem test_ldx :
    let r := run 0x7C64282A (withData (regs [(4, 0x2000), (5, 0x8)]))
    gprOf r 3 = some 0xFEDCBA9876543210 := by
  decide +kernel

theorem test_ldux :
    let r := run 0x7C64286A (withData (regs [(4, 0x2010), (5, 0xFFFFFFFFFFFFFFF0)]))
    gprOf r 3 = some 0x8081828384858687 ∧ gprOf r 4 = some 0x2000 := by
  decide +kernel

theorem test_stbu :
    let r := run 0x9C840001 (regs [(4, 0x30FF)])
    gprOf r 4 = some 0x3100 ∧ bytesOf r 0x3100 1 = some [0xFF] := by
  decide +kernel

theorem test_stbx :
    let r := run 0x7C6029AE (regs [(0, 0x99), (3, 0x1AB), (5, 0x3001)])
    bytesOf r 0x3001 1 = some [0xAB] := by
  decide +kernel

theorem test_sthu :
    let r := run 0xB464FFFE (regs [(3, 0xABCD), (4, 0x3002)])
    gprOf r 4 = some 0x3000 ∧ bytesOf r 0x3000 2 = some [0xAB, 0xCD] := by
  decide +kernel

theorem test_sthx :
    let r := run 0x7C642B2E (regs [(3, 0xABCD), (4, 0x3000), (5, 0x2)])
    bytesOf r 0x3002 2 = some [0xAB, 0xCD] := by
  decide +kernel

theorem test_sthux :
    let r := run 0x7C642B6E (regs [(3, 0xABCD), (4, 0x3000), (5, 0x2)])
    gprOf r 4 = some 0x3002 ∧ bytesOf r 0x3002 2 = some [0xAB, 0xCD] := by
  decide +kernel

theorem test_stwu :
    let r := run 0x94640004 (regs [(3, 0x11223344), (4, 0x3000)])
    gprOf r 4 = some 0x3004 ∧ bytesOf r 0x3004 4 = some [0x11, 0x22, 0x33, 0x44] := by
  decide +kernel

theorem test_stwx :
    let r := run 0x7C64292E (regs [(3, 0x9911223344), (4, 0x3000), (5, 0x4)])
    bytesOf r 0x3004 4 = some [0x11, 0x22, 0x33, 0x44] := by
  decide +kernel

theorem test_stwux :
    let r := run 0x7C64296E (regs [(3, 0x11223344), (4, 0x3000), (5, 0x8)])
    gprOf r 4 = some 0x3008 ∧ bytesOf r 0x3008 4 = some [0x11, 0x22, 0x33, 0x44] := by
  decide +kernel

theorem test_stdx :
    let r := run 0x7C64292A (regs [(3, 0x102030405060708), (4, 0x3000), (5, 0x8)])
    bytesOf r 0x3008 8 = some [0x01, 0x02, 0x03, 0x04, 0x05, 0x06, 0x07, 0x08] := by
  decide +kernel

theorem test_stdux :
    let r := run 0x7C64296A (regs [(3, 0x102030405060708), (4, 0x3000), (5, 0x8)])
    gprOf r 4 = some 0x3008 ∧ bytesOf r 0x3008 8 = some [0x01, 0x02, 0x03, 0x04, 0x05, 0x06, 0x07, 0x08] := by
  decide +kernel

theorem test_bl :
    let r := run 0x48000101 State.reset
    pcOf r = some 0x1100 ∧ lrOf r = some 0x1004 := by
  decide +kernel

theorem test_bca :
    let r := run 0x42800102 State.reset
    pcOf r = some 0x100 := by
  decide +kernel

theorem test_bcla :
    let r := run 0x4280FFFF State.reset
    pcOf r = some 0xFFFFFFFFFFFFFFFC ∧ lrOf r = some 0x1004 := by
  decide +kernel

theorem test_bcctrl :
    let r := run 0x4E800421 { State.reset with ctr := some 0x4002 }
    pcOf r = some 0x4000 ∧ lrOf r = some 0x1004 ∧ ctrOf r = some 0x4002 := by
  decide +kernel

theorem test_crand :
    let r := run 0x4C400A02 { State.reset with cr := 0xC0000000 }
    crOf r = some 0xE0000000 := by
  decide +kernel

theorem test_crnand :
    let r := run 0x4C0009C2 { State.reset with cr := 0xC0000000 }
    crOf r = some 0x40000000 := by
  decide +kernel

theorem test_cror :
    let r := run 0x4FFE0382 { State.reset with cr := 0x80000000 }
    crOf r = some 0x80000001 := by
  decide +kernel

theorem test_mtocrf :
    let r := run 0x7C940120 { (regs [(4, 0xAAAAAAAA)]) with cr := 0x11111111 }
    crOf r = some 0x1A111111 := by
  decide +kernel

theorem test_mulhw : drawsOf (run 0x7C642896 (regs [(4, 0xFFFFFFFF), (5, 2)])) = some 1 := by decide +kernel

theorem test_mulhwu : drawsOf (run 0x7C642816 (regs [(4, 0xFFFFFFFF), (5, 2)])) = some 1 := by decide +kernel

theorem test_divw : drawsOf (run 0x7C642BD6 (regs [(4, 0xFFFFFFF9), (5, 2)])) = some 1 := by decide +kernel

theorem test_divwu_second : drawsOf (run 0x7C642B96 (regs [(4, 0x1FFFFFFF9), (5, 2)])) = some 1 := by decide +kernel

theorem test_mfocrf : drawsOf (run 0x7C720026 State.reset) = some 1 := by decide +kernel

theorem test_eieio : nextOf (run 0x7C0006AC State.reset) = some (State.reset.withFetchWord 32 0x7C0006AC).advance := by
  decide +kernel

theorem test_dcbt : nextOf (run 0x7C042A2C State.reset) = some (State.reset.withFetchWord 32 0x7C042A2C).advance := by
  decide +kernel

theorem test_dcbtst : nextOf (run 0x7C0429EC State.reset) = some (State.reset.withFetchWord 32 0x7C0429EC).advance := by
  decide +kernel

theorem test_dcbst : nextOf (run 0x7C04286C State.reset) = some (State.reset.withFetchWord 32 0x7C04286C).advance := by
  decide +kernel

theorem test_dcbf : nextOf (run 0x7C0428AC State.reset) = some (State.reset.withFetchWord 32 0x7C0428AC).advance := by
  decide +kernel

theorem test_icbi : nextOf (run 0x7C042FAC State.reset) = some (State.reset.withFetchWord 32 0x7C042FAC).advance := by
  decide +kernel

theorem test_tlbie : refusalOf (run 0x7C000264 State.reset) = some (.unmodelled 9) := by decide +kernel

theorem test_tlbiel : refusalOf (run 0x7C000224 State.reset) = some (.unmodelled 10) := by decide +kernel

theorem test_tlbia : refusalOf (run 0x7C0002E4 State.reset) = some (.unmodelled 11) := by decide +kernel

theorem test_tlbsync : refusalOf (run 0x7C00046C State.reset) = some (.unmodelled 12) := by decide +kernel

theorem test_slbmte : refusalOf (run 0x7C000324 State.reset) = some (.unmodelled 13) := by decide +kernel

theorem test_slbie : refusalOf (run 0x7C000364 State.reset) = some (.unmodelled 14) := by decide +kernel

theorem test_slbia : refusalOf (run 0x7C0003E4 State.reset) = some (.unmodelled 15) := by decide +kernel

theorem test_slbmfev : refusalOf (run 0x7C0006A6 State.reset) = some (.unmodelled 16) := by decide +kernel

theorem test_slbmfee : refusalOf (run 0x7C000726 State.reset) = some (.unmodelled 17) := by decide +kernel

theorem test_ldarx : refusalOf (run 0x7C0000A8 State.reset) = some (.unmodelled 19) := by decide +kernel

theorem test_stdcx : refusalOf (run 0x7C0001AC State.reset) = some (.unmodelled 21) := by decide +kernel

theorem test_mtmsr : refusalOf (run 0x7C000124 State.reset) = some (.unmodelled 23) := by decide +kernel

theorem test_mtmsrd : refusalOf (run 0x7C000164 State.reset) = some (.unmodelled 24) := by decide +kernel

theorem test_hrfid : refusalOf (run 0x4C000224 State.reset) = some (.unmodelled 26) := by decide +kernel

/-! ### Misaligned data, the parameters and the architectural flags (sections 10 and 8; 43_arith.md R341) -/

theorem test_misaligned_data :
    faultOf (run 0x80640001 (withData (regs [(4, 0x2000)]))) = some (.misalignedData 0x2001 4)
      ∧ gprOf (run 0x80640001 { (withData (regs [(4, 0x2000)])) with params := ⟨.reference, .field6, .allow⟩ }) 3
        = some 0x81828384 := by decide +kernel

theorem test_rldcr_parameters :
    gprOf (run 0x78832FF2 { (regs [(4, 1), (5, 4)]) with params := ⟨.reference, .field5, .fault⟩ }) 3 = some 0x20
      ∧ gprOf (run 0x78832FF2 { (regs [(4, 1), (5, 4)]) with params := ⟨.reference, .register, .fault⟩ }) 3
        = some 0x10 := by decide +kernel

theorem test_architectural_flags :
    xerOf (run 0x7C642C14 { (regs [(4, 0x7FFFFFFFFFFFFFFF), (5, 1)]) with params := ⟨.architectural, .field6, .fault⟩ })
        = some (true, true, false)
      ∧ xerOf (run 0x7C642C14 { (regs [(4, 0xFFFFFFFFFFFFFFFF), (5, 1)]) with params := ⟨.architectural, .field6, .fault⟩ })
        = some (false, false, true) := by decide +kernel

theorem test_bcctr_decrement : refusalOf (run 0x4E000420 State.reset) = some .bcctrDecrement := by decide +kernel

/-! ### The step -/

theorem test_halt : faultOf (step { State.reset with pc := 0x2000 }) = some .halted := by decide +kernel
theorem test_misaligned_fetch : faultOf (step { State.reset with pc := 0x1002 }) = some (.misalignedFetch 0x1002) := by
  decide +kernel
theorem test_modified_code : faultOf (step { State.reset with written := [0x1003] }) = some (.modifiedCodeFetch 0x1000) := by
  decide +kernel
theorem test_not_admitted : faultOf (step { State.reset with admitted := [] }) = some (.stuck 0x1000 4 .fetch) := by
  decide +kernel
theorem test_reset_word : faultOf (step State.reset) = some (.illegalInstruction 0) := by decide +kernel
theorem test_table_word : decodeTableWord 32 0x38600001 = some (.li 3 1) ∧ decodeTableWord 32 0 = some (.reserved 0)
    ∧ decodeTableWord 32 0x84A00000 = none := by decide +kernel

/-! ### Witnesses: each obligation's hypotheses met together on concrete states and operands -/

open Sys2Proof.Safety Sys2Proof.Claims

theorem next_of {r : Result} (h : (nextOf r).isSome = true) : ∃ t, r = .next t := by
  cases r with
  | next t => exact ⟨t, rfl⟩
  | fault _ => cases h
  | refused _ => cases h

theorem next_is {r : Result} {t : State} (h : nextOf r = some t) : r = .next t := by
  cases r with
  | next u => cases h; rfl
  | fault _ => cases h
  | refused _ => cases h

theorem fault_of {r : Result} {f : Fault} (h : faultOf r = some f) : r = .fault f := by
  cases r with
  | fault g => cases h; rfl
  | next _ => cases h
  | refused _ => cases h

/-- A state for the witnesses: r3 = 7, r4 = 0x3000, r5 = 4, r6 = 0 with bits in CR, LR and CTR. -/
def sample : State := { (regs [(3, 7), (4, 0x3000), (5, 4)]) with cr := 0x20000001, lr := some 0x4003, ctr := some 2 }

/-- The sample under one choice of the parameters. -/
def under (c : CaOvMode) (r : RldcrShift) (m : MisalignedData) : State := { sample with params := ⟨c, r, m⟩ }

/-- The sample with r3, LR and CTR unset. -/
def unsetSample : State :=
  { sample with gpr := sample.gpr.set 3 none, lr := none, ctr := none }

/-- The state after an instruction, for an instruction that completes. -/
def after (i : Instr) (s : State) : State := (nextOf (exec i s)).getD s

theorem witness_DecodeOfEncode : Instr.wellFormed (.add 3 4 5 true true) = true
    ∧ Instr.wellFormed (.lwzu 31 30 0xFFFF) = true ∧ Instr.wellFormed (.passthrough 0xFC000000#32) = true := by decide

theorem witness_DecodedIsWellFormed : decode 0x84C50008#32 = .success (.lwzu 6 5 8) := by decide +kernel

theorem witness_StepRunsDecoded :
    let s := State.reset.withFetchWord 32 0x38600007
    s.pc ≠ s.exit ∧ s.pc.toNat % 4 = 0 ∧ s.admits s.pc 4 .fetch = true
      ∧ (∀ k, k < 4 → (s.pc + BitVec.ofNat 64 k).toNat ∉ s.written)
      ∧ decode (s.mem.read s.pc.toNat ++ s.mem.read (s.pc + 1#64).toNat ++ s.mem.read (s.pc + 2#64).toNat
        ++ s.mem.read (s.pc + 3#64).toNat) = .success (.li 3 7) := by decide +kernel

/-- One state for each clause: at the exit, misaligned, not admitted, the last fetched byte stored, and a reserved
word. -/
theorem witness_StepStopsInOrder :
    (let s := { State.reset with pc := 0x2000 }; s.pc = s.exit)
      ∧ (let s := { State.reset with pc := 0x1003 }; s.pc ≠ s.exit ∧ s.pc.toNat % 4 ≠ 0)
      ∧ (let s := { State.reset with admitted := [] }
        s.pc ≠ s.exit ∧ s.pc.toNat % 4 = 0 ∧ s.admits s.pc 4 .fetch = false)
      ∧ (let s := { State.reset with written := [0x1003] }
        s.pc ≠ s.exit ∧ s.pc.toNat % 4 = 0 ∧ s.admits s.pc 4 .fetch = true
          ∧ ∃ k, k < 4 ∧ (s.pc + BitVec.ofNat 64 k).toNat ∈ s.written) := by
  refine ⟨by decide +kernel, by decide +kernel, by decide +kernel, by decide +kernel, by decide +kernel,
    by decide +kernel, 3, by decide, by decide +kernel⟩

theorem witness_StepStopsInOrder_decode :
    (let s := State.reset;
      s.pc ≠ s.exit ∧ s.pc.toNat % 4 = 0 ∧ s.admits s.pc 4 .fetch = true
        ∧ (∀ k, k < 4 → (s.pc + BitVec.ofNat 64 k).toNat ∉ s.written))
      ∧ ReservedPrimary State.reset.fetchWord
      ∧ ReservedSecondary (State.reset.withFetchWord 32 0xE8000003).fetchWord
      ∧ InvalidUpdate (State.reset.withFetchWord 32 0x84A50000).fetchWord := by
  unfold ReservedPrimary ReservedSecondary InvalidUpdate BadLoadUpdate BadStoreUpdate
  decide +kernel

theorem witness_FaultsComeFromTheirCauses :
    exec (.reserved 0) sample = .fault (.illegalInstruction 0)
      ∧ exec (.neg 5 3 false false) unsetSample = .fault .unsetRegister
      ∧ exec (.mfspr 3 8) unsetSample = .fault .unsetRegister ∧ exec (.bc 16 0 2) unsetSample = .fault .unsetRegister
      ∧ exec (.lwz 3 4 3) sample = .fault (.misalignedData 0x3003 4)
      ∧ exec (.tw 31 3 3) sample = .fault (.trapTaken 0x1000) ∧ exec (.sc 127) sample = .fault (.systemCall 127)
      ∧ exec (.stb 3 4 0) { sample with admitted := [] } = .fault (.stuck 0x3000 1 .write) :=
  ⟨rfl, fault_of (by decide +kernel), fault_of (by decide +kernel), fault_of (by decide +kernel),
    fault_of (by decide +kernel), fault_of (by decide +kernel), rfl, fault_of (by decide +kernel)⟩

theorem witness_UnsetSourceFaults :
    3 ∈ gprSources unsetSample.params (.std 3 4 0) ∧ unsetSample.readGpr 3 = none := by decide +kernel

theorem witness_StepKeepsInvariant :
    let s := sample.withFetchWord 32 0x90640000
    Inv s ∧ ∃ t, step s = .next t :=
  ⟨⟨by decide +kernel, by decide +kernel, by decide +kernel, by decide +kernel⟩, next_of (by decide +kernel)⟩

theorem witness_StepKeepsSetAndLaunch :
    let s := sample.withFetchWord 32 0x38600007
    (∃ t, step s = .next t) ∧ s.readGpr 3 ≠ none ∧ s.lr ≠ none ∧ s.ctr ≠ none :=
  ⟨next_of (by decide +kernel), by decide +kernel, by decide +kernel, by decide +kernel⟩

theorem witness_NonBranchAdvancesPc :
    isBranch (.add 3 4 5 false false) = false ∧ ∃ t, exec (.add 3 4 5 false false) sample = .next t :=
  ⟨rfl, next_of (by decide +kernel)⟩

theorem witness_XerWrittenOnlyByMtxer :
    sample.params.caOvMode = .reference ∧ (∀ rs, Instr.adde 3 4 5 true true ≠ .mtspr rs 1#10)
      ∧ ∃ t, exec (.adde 3 4 5 true true) sample = .next t :=
  ⟨rfl, fun _ h => (by cases h), next_of (by decide +kernel)⟩

theorem witness_OnlyStoresChangeMemory :
    isStore (.lwz 3 4 0) = false ∧ ∃ t, exec (.lwz 3 4 0) sample = .next t := ⟨rfl, next_of (by decide +kernel)⟩

theorem witness_LinkAndCountWriters :
    (∃ t, exec (.mtspr 3 9) sample = .next t) ∧ isLinking (.mtspr 3 9) = false
      ∧ (∀ rs, Instr.mtspr 3 9 ≠ .mtspr rs 8#10) ∧ (∃ t, exec (.bcctrl 20 0 0) sample = .next t)
      ∧ mayDecrement (.bcctrl 20 0 0) = false ∧ ∀ rs, Instr.bcctrl 20 0 0 ≠ .mtspr rs 9#10 :=
  ⟨next_of (by decide +kernel), rfl, fun _ h => (by cases h), next_of (by decide +kernel), rfl, fun _ h => (by cases h)⟩

theorem witness_CrWrittenOnlyOnRequest :
    (flagRequest (.addc 3 4 5 true false)).getLsbD 0 = false ∧ writesCrExplicitly (.addc 3 4 5 true false) = false
      ∧ ∃ t, exec (.addc 3 4 5 true false) sample = .next t :=
  ⟨by decide, rfl, next_of (by decide +kernel)⟩

/-- stb writes one of the four bytes that lwz then reads; the other three are memory's own. -/
theorem witness_LoadAfterStore :
    let t := after (.stb 3 4 6) sample
    storeAccess sample (.stb 3 4 6) = some (0x3006, [7]) ∧ exec (.stb 3 4 6) sample = .next t
      ∧ (Instr.lwz 6 4 4).wellFormed = true ∧ (∃ l, loadAccess t (.lwz 6 4 4) = some l)
      ∧ (∃ u, exec (.lwz 6 4 4) t = .next u) ∧ (after (.lwz 6 4 4) t).readGpr 6 = some 0x700
      ∧ byteAfter sample.mem 0x3006 [7] 0x3006 = 7 ∧ byteAfter sample.mem 0x3006 [7] 0x3007 = 0 :=
  ⟨by decide +kernel, next_is (by decide +kernel), by decide +kernel,
    Option.isSome_iff_exists.1 (by decide +kernel), next_of (by decide +kernel), by decide +kernel, by decide +kernel,
    by decide +kernel⟩

/-- The last bytes of the address space: sthbrx at 2^64 - 2 puts the low byte first, and lhz reads them reversed. -/
theorem test_sthbrx_then_lhz_at_top :
    let s := (sample.setGpr 8 0xFFFFFFFFFFFFFFFE).setGpr 9 0x1234
    (after (.lhz 6 8 0) (after (.sthbrx 9 0 8) s)).readGpr 6 = some 0x3412 := by decide +kernel

/-- The store and the fetch meet in their last bytes: j = k = 3. -/
theorem witness_FetchOfStoredByteFaults :
    let t := after (.stw 3 4 0) sample
    let u := { t with pc := 0x3000 }
    eaD 4 0 sample = some 0x3000 ∧ exec (.stw 3 4 0) sample = .next t ∧ (∀ a, a ∈ t.written → a ∈ u.written)
      ∧ u.pc ≠ u.exit ∧ u.pc.toNat % 4 = 0 ∧ u.admits u.pc 4 .fetch = true
      ∧ u.pc + BitVec.ofNat 64 3 = 0x3000 + BitVec.ofNat 64 3 :=
  ⟨by decide +kernel, next_is (by decide +kernel), fun _ h => h, by decide +kernel, by decide +kernel,
    by decide +kernel, by decide +kernel⟩

/-- Base register 4 and base field 0, an accessible address, a misaligned one, one not admitted, and a misaligned one
that `allow` lets through to the admission check. -/
theorem witness_LoadsPlain :
    sample.readGprOrZero 4 = some 0x3000 ∧ sample.readGprOrZero 0 = some 0 ∧ sample.readGpr 5 = some 4
      ∧ Accessible sample .read (0x3000 + sext 0xFFF8#16) 8 ∧ Accessible sample .read (0x3000 + sext (1#14 ++ 0#2)) 4
      ∧ Accessible sample .read (0x3000 + 4#64) 2
      ∧ ((0x3000 + sext 7#16 : Word).toNat % 8 ≠ 0 ∧ sample.params.misalignedData = .fault)
      ∧ (let s := { sample with admitted := [] }
        (0x3000 + sext 8#16 : Word).toNat % 8 = 0 ∧ s.admits (0x3000 + sext 8#16) 8 .read = false)
      ∧ (let s := { under .reference .field6 .allow with admitted := [] }
        s.params.misalignedData = .allow ∧ s.admits (0x3000 + sext 7#16) 8 .read = false) := by
  unfold Accessible; decide +kernel

theorem witness_LoadsWithUpdate :
    (4 : Reg) ≠ 3 ∧ sample.readGpr 4 = some 0x3000 ∧ sample.readGpr 5 = some 4
      ∧ Accessible sample .read (0x3000 + sext 0xFFF8#16) 8 ∧ Accessible sample .read (0x3000 + 4#64) 2
      ∧ Accessible sample .read (0x3000 + sext (1#14 ++ 0#2)) 4
      ∧ ((0x3000 + sext 1#16 : Word).toNat % 2 ≠ 0 ∧ sample.params.misalignedData = .fault)
      ∧ (let s := { sample with admitted := [] }
        (0x3000 + sext 2#16 : Word).toNat % 2 = 0 ∧ s.admits (0x3000 + sext 2#16) 2 .read = false) := by
  unfold Accessible; decide +kernel

theorem witness_StoresPlain :
    sample.readGprOrZero 4 = some 0x3000 ∧ sample.readGpr 5 = some 4 ∧ sample.readGpr 3 = some 7
      ∧ Accessible sample .write (0x3000 + sext 0xFFF8#16) 8 ∧ Accessible sample .write (0x3000 + 4#64) 4
      ∧ Accessible sample .write (0x3000 + sext (1#14 ++ 0#2)) 4
      ∧ ((0x3000 + sext 2#16 : Word).toNat % 4 ≠ 0 ∧ sample.params.misalignedData = .fault)
      ∧ (let s := { sample with admitted := [] }
        (0x3000 + sext 4#16 : Word).toNat % 4 = 0 ∧ s.admits (0x3000 + sext 4#16) 4 .write = false) := by
  unfold Accessible; decide +kernel

theorem witness_StoresWithUpdate :
    sample.readGpr 4 = some 0x3000 ∧ sample.readGpr 5 = some 4 ∧ sample.readGpr 3 = some 7
      ∧ Accessible sample .write (0x3000 + sext 0xFFF8#16) 8 ∧ Accessible sample .write (0x3000 + 4#64) 4
      ∧ ((0x3000 + sext 7#16 : Word).toNat % 8 ≠ 0 ∧ sample.params.misalignedData = .fault)
      ∧ (let s := { under .reference .field6 .allow with admitted := [] }
        s.params.misalignedData = .allow ∧ s.admits (0x3000 + sext 7#16) 8 .write = false) := by
  unfold Accessible; decide +kernel

/-- BO = 20 is always; 12 tests CR alone, met and not met; 16 and 18 test CTR, which is 2 and then 1 after the
decrement. -/
theorem witness_ConditionalBranches :
    Always 20 ∧ (¬ Always 12 ∧ (12#5).getLsbD 2 = true ∧ Taken 12 2 0#64 sample.cr ∧ ¬ Taken 12 3 0#64 sample.cr)
      ∧ (¬ Always 16 ∧ (16#5).getLsbD 2 = false ∧ sample.ctr = some 2#64 ∧ Taken 16 0 (2#64 - 1#64) sample.cr
        ∧ ¬ Taken 18 0 (2#64 - 1#64) sample.cr)
      ∧ unsetSample.ctr = none := by
  unfold Always Taken; decide +kernel

theorem witness_ConditionalBranches_registers :
    sample.lr = some 0x4003#64 ∧ unsetSample.lr = none ∧ (20#5).getLsbD 2 = true ∧ sample.ctr = some 2#64
      ∧ unsetSample.ctr = none ∧ (Always 20 ∨ Taken 20 0 0#64 sample.cr)
      ∧ ¬ (Always 4 ∨ Taken 4 2 0#64 sample.cr) := by
  unfold Always Taken; decide +kernel

theorem witness_EdgesAgreeWithExecution :
    (decode 0x4BFFFFFC#32 = .success (.b 0xFFFFFF) ∧ (0x4BFFFFFC#32).extractLsb' 26 6 = 18#6)
      ∧ (decode 0x4182000C#32 = .success (.bc 12 2 3) ∧ (0x4182000C#32).extractLsb' 26 6 = 16#6)
      ∧ (decode 0x38600001#32 = .success (.li 3 1) ∧ isBranch (.li 3 1) = false)
      ∧ (∃ t, exec (.b 0xFFFFFF) sample = .next t) ∧ (∃ t, exec (.bc 12 2 3) sample = .next t)
      ∧ ∃ t, exec (.li 3 1) sample = .next t :=
  ⟨by decide +kernel, by decide +kernel, by decide +kernel, next_of (by decide +kernel), next_of (by decide +kernel),
    next_of (by decide +kernel)⟩

theorem witness_CrMoves : sample.readGpr 3 = some 7 := by decide +kernel

/-- FXM selects field 0, field 7, no field, and two fields. -/
theorem witness_CrOneFieldMoves :
    OneHot 0x80 0 ∧ OneHot 0x01 7 ∧ (¬ ∃ f, OneHot 0x00 f) ∧ (¬ ∃ f, OneHot 0x81 f) ∧ sample.readGpr 3 = some 7 := by
  unfold OneHot; decide +kernel

theorem witness_ImmediateArithmetic :
    sample.readGprOrZero 0 = some 0#64 ∧ sample.readGprOrZero 3 = some 7#64 ∧ sample.readGpr 3 = some 7#64 := by
  decide +kernel

theorem witness_AddSubtractNegate :
    sample.readGpr 3 = some 7 ∧ sample.readGpr 4 = some 0x3000 ∧ NoOverflowWrite true sample
      ∧ NoOverflowWrite false (under .havoc .field6 .fault) :=
  ⟨by decide +kernel, by decide +kernel, .inr rfl, .inl rfl⟩

theorem witness_CarryFamilyUnderReference :
    sample.readGpr 3 = some 7 ∧ sample.readGpr 4 = some 0x3000 ∧ sample.params.caOvMode = .reference := by
  decide +kernel

theorem witness_ArchitecturalCarry :
    let s := under .architectural .field6 .fault
    s.readGpr 3 = some 7 ∧ s.readGpr 4 = some 0x3000 ∧ s.params.caOvMode = .architectural := by decide +kernel

/-- r6 is a zero divisor; 7 by 4 is defined. -/
theorem witness_ArchitecturalOverflowBits :
    let s := under .architectural .field6 .fault
    s.readGpr 3 = some 7 ∧ s.readGpr 5 = some 4 ∧ s.readGpr 6 = some 0 ∧ s.params.caOvMode = .architectural
      ∧ NoQuotient 7 0 ∧ ¬ NoQuotient 7 4 ∧ NoWordQuotient 7 0 ∧ ¬ NoWordQuotient 7 4
      ∧ NoQuotient 0x8000000000000000 0xFFFFFFFFFFFFFFFF ∧ NoWordQuotient 0x80000000 0xFFFFFFFF
      ∧ unsignedLow 0 = 0 ∧ unsignedLow 4 ≠ 0 := by
  unfold NoQuotient NoWordQuotient; decide +kernel

/-- r6 is a zero divisor; 7 by 4 is defined. -/
theorem witness_HavocDraws :
    let s := under .havoc .field6 .fault
    s.readGpr 3 = some 7 ∧ s.readGpr 5 = some 4 ∧ s.readGpr 6 = some 0 ∧ s.params.caOvMode = .havoc
      ∧ NoQuotient 7 0 ∧ ¬ NoQuotient 7 4 ∧ NoWordQuotient 7 0 ∧ ¬ NoWordQuotient 7 4 := by
  unfold NoQuotient NoWordQuotient; decide +kernel

/-- Under havoc a division with OE = 1 takes a draw for an undefined quotient, two for OV and SO, one for CR0. -/
theorem test_divd_havoc_draws :
    (nextOf (exec (.divd 7 3 6 true true) (under .havoc .field6 .fault))).map (fun t => t.nextDraw) = some 4
      ∧ (nextOf (exec (.divd 7 3 5 true true) (under .havoc .field6 .fault))).map (fun t => t.nextDraw) = some 2 := by
  decide +kernel

theorem witness_Multiplies :
    sample.readGpr 3 = some 7 ∧ sample.readGpr 4 = some 0x3000 ∧ NoOverflowWrite true sample :=
  ⟨by decide +kernel, by decide +kernel, .inr rfl⟩

/-- r6 is a zero divisor; -2^63 by -1 overflows; 7 by 4 is defined. -/
theorem witness_Divisions :
    sample.readGpr 3 = some 7 ∧ sample.readGpr 5 = some 4 ∧ sample.readGpr 6 = some 0 ∧ NoOverflowWrite true sample
      ∧ (let s := (sample.setGpr 7 0x8000000000000000).setGpr 8 0xFFFFFFFFFFFFFFFF
        s.readGpr 7 = some 0x8000000000000000 ∧ s.readGpr 8 = some 0xFFFFFFFFFFFFFFFF)
      ∧ (signedLow 0x80000000 = -(2 ^ 31) ∧ signedLow 0xFFFFFFFF = -1 ∧ signedLow 4 ≠ 0 ∧ unsignedLow 0x100000000 = 0) :=
  ⟨by decide +kernel, by decide +kernel, by decide +kernel, .inr rfl, by decide +kernel, by decide +kernel⟩

theorem witness_Compares : sample.readGpr 3 = some 7 ∧ sample.readGpr 4 = some 0x3000 := by decide +kernel
theorem witness_LogicalImmediates : sample.readGpr 3 = some 7 := by decide +kernel
theorem witness_LogicalRegisters : sample.readGpr 3 = some 7 ∧ sample.readGpr 4 = some 0x3000 := by decide +kernel
theorem witness_ExtendAndCount : sample.readGpr 3 = some 7 := by decide +kernel
theorem witness_WordRotates : sample.readGpr 3 = some 7 ∧ sample.readGpr 4 = some 0x3000 := by decide +kernel
theorem witness_DoublewordRotates : sample.readGpr 3 = some 7 ∧ sample.readGpr 4 = some 0x3000 := by decide +kernel
theorem witness_LogicalShifts : sample.readGpr 3 = some 7 ∧ sample.readGpr 4 = some 0x3000 := by decide +kernel

theorem witness_RldcrShiftAmount :
    ((under .reference .field6 .fault).readGpr 3 = some 7 ∧ (under .reference .field6 .fault).params.rldcrShift = .field6)
      ∧ ((under .reference .field5 .fault).readGpr 3 = some 7
        ∧ (under .reference .field5 .fault).params.rldcrShift = .field5)
      ∧ ((under .reference .register .fault).readGpr 3 = some 7
        ∧ (under .reference .register .fault).params.rldcrShift = .register
        ∧ (under .reference .register .fault).readGpr 5 = some 4) := by decide +kernel

theorem witness_AlgebraicShifts :
    sample.readGpr 3 = some 7 ∧ sample.readGpr 5 = some 4 ∧ sample.params.caOvMode = .reference
      ∧ (under .architectural .field6 .fault).params.caOvMode = .architectural
      ∧ (under .architectural .field6 .fault).readGpr 3 = some 7 := by decide +kernel

theorem witness_MovesFromSpecialRegisters :
    sample.lr = some 0x4003 ∧ unsetSample.lr = none ∧ sample.ctr = some 2 ∧ unsetSample.ctr = none
      ∧ ((268#10 : BitVec 10) = 268#10 ∨ (268#10 : BitVec 10) = 269#10) := by decide +kernel

theorem witness_MovesToSpecialRegisters : sample.readGpr 3 = some 7 := by decide +kernel

/-- SPR 0 and the largest number, 1023; TBR 0; BO = 16. -/
theorem witness_OperandsRefused :
    0#10 ∉ [1#10, 8#10, 9#10, 268#10, 269#10] ∧ 1023#10 ∉ [1#10, 8#10, 9#10, 268#10, 269#10]
      ∧ 268#10 ∉ [1#10, 8#10, 9#10] ∧ 0#10 ∉ [268#10, 269#10] ∧ (16#5).getLsbD 2 = false := by decide

theorem witness_NoOpIntrinsics : ∃ l, Instr.sync 3 = .sync l := ⟨3, rfl⟩

/-- TO = 4 on equal operands holds and on 7 and 0x3000 does not, for each of the four instructions. -/
theorem witness_TrapInstructions :
    sample.readGpr 3 = some 7 ∧ sample.readGpr 4 = some 0x3000
      ∧ TrapHolds 4 (signedLow 7) (signedLow 7) (unsignedLow 7) (unsignedLow 7)
      ∧ ¬ TrapHolds 4 (signedLow 7) (signedLow 0x3000) (unsignedLow 7) (unsignedLow 0x3000)
      ∧ TrapHolds 16 (0xFFFFFFFFFFFFFFFF#64).toInt (0#64).toInt (0xFFFFFFFFFFFFFFFF#64).toNat (0#64).toNat
      ∧ ¬ TrapHolds 16 (7#64).toInt (0#64).toInt (7#64).toNat (0#64).toNat := by
  unfold TrapHolds; decide +kernel

/-- The wrap from bit 63 to bit 0, the whole mask, and a bit position at each end. -/
theorem witness_RotateMaskBits : 63 < 64 ∧ 0 < 64 ∧ 1 % 64 = (0 + 1) % 64 ∧ 0 % 64 = (63 + 1) % 64 := by decide
theorem witness_RotateBits : 63 < 64 ∧ (63 + 200) % 64 = 7 := by decide
theorem witness_MemoryIsBigEndian : 8 ∈ [1, 2, 4, 8] ∧ 7 < 8 := by decide

/-- 70 R702: "a final `blr` (0x4E800020) ends the run with `Halt`": one step to the exit address, and no more. -/
theorem witness_RunEndsAtFirstStop :
    let s := State.reset.withFetchWord 32 0x4E800020
    runFrom 1 s = .running { s with pc := 0x2000 } ∧ runFrom 2 s = .halt { s with pc := 0x2000 }
      ∧ runFrom 5 s = .halt { s with pc := 0x2000 } := by decide +kernel

/-- A run from reset with nothing placed ends at its first step; a passthrough word and an access that is not admitted
end theirs as refusal and stuck (60_exceptions.md R601). -/
theorem test_run_ends :
    runFrom 3 State.reset = .fault (.illegalInstruction 0) State.reset
      ∧ (let s := State.reset.withFetchWord 32 0xFC000000; runFrom 3 s = .refusal .passthrough s)
      ∧ (let s := (resetLaunch.start Params.default).withFetchWord 32 0x80640000
        let u := { s with admitted := [⟨.fetch, 4, 0x1000, 1⟩] }
        runFrom 3 u = .stuck 0 4 .read u) := by decide +kernel

end Sys2Proof.Tests
end

section
/-! PROOFS. The rotates of 00_scope.md R16 by bit positions. -/

namespace Sys2Proof.Machine

/-- A left rotate by `n` takes bit `j` to bit `j + n`, read modulo the width: below the top by a plain shift, past it
into the bits that wrapped around. -/
theorem getLsbD_rotateLeft_add_mod {w : Nat} (x : BitVec w) (n j : Nat) (hj : j < w) :
    (x.rotateLeft n).getLsbD ((j + n) % w) = x.getLsbD j := by
  have hn : n % w < w := Nat.mod_lt n (by omega)
  rw [BitVec.getLsbD_rotateLeft, ← Nat.add_mod_mod]
  generalize n % w = r at hn
  by_cases hwrap : j + r < w
  · have hmod : (j + r) % w = j + r := Nat.mod_eq_of_lt hwrap
    simp [hmod, hwrap]
  · have hmod : (j + r) % w = j + r - w := by
      rw [Nat.mod_eq_sub_mod (by omega), Nat.mod_eq_of_lt (by omega)]
    have hlow : j + r - w < r := by omega
    have hback : w - r + (j + r - w) = j := by omega
    simp [hmod, hlow, hback]

/-- Both halves of the doubled low word are the low word. -/
theorem getLsbD_lowWord_append_lowWord (x : Word) (j : Nat) (hj : j < 64) :
    (lowWord x ++ lowWord x).getLsbD j = x.getLsbD (j % 32) := by
  have hlow (i : Nat) (hi : i < 32) : (lowWord x).getLsbD i = x.getLsbD i := by simp [lowWord, hi]
  by_cases hj' : j < 32
  · rw [getLsbD_append_low _ _ hj', hlow j hj', Nat.mod_eq_of_lt hj']
  · have hmod : j % 32 = j - 32 := by omega
    rw [getLsbD_append_high _ _ (by omega), hlow _ (by omega), hmod]

theorem getLsbD_rotl64_add_mod (x : Word) (n j : Nat) (hj : j < 64) :
    (rotl64 x n).getLsbD ((j + n) % 64) = x.getLsbD j :=
  getLsbD_rotateLeft_add_mod x n j hj

theorem getLsbD_rotl32_add_mod (x : Word) (n j : Nat) (hj : j < 64) :
    (rotl32 x n).getLsbD ((j + n) % 64) = x.getLsbD (j % 32) := by
  rw [rotl32, getLsbD_rotl64_add_mod _ n j hj, getLsbD_lowWord_append_lowWord x j hj]

/-- Settles O9: the rotate rule at width 64, on the word itself and on its doubled low word. -/
theorem rotateBits : Obligations.RotateBits :=
  ⟨getLsbD_rotl64_add_mod, getLsbD_rotl32_add_mod⟩

end Sys2Proof.Machine
end

section
/-! PROOFS. What one instruction can do: the ends of `exec`, read off once, instruction by instruction. -/

namespace Sys2Proof.Machine

open Sys2Proof.Safety Sys2Proof.Config

/-- The ways an instruction that completes can end: from `s`, the instruction `i` leaves the state of the index. A
constructor's hypotheses say which instructions may end that way, where a claim about the machine turns on it. -/
inductive ExecEnd (i : Instr) (s : State) : State → Prop
  /-- PC alone: no-op intrinsics and traps not taken. -/
  | advanced : ExecEnd i s s.advance
  /-- One general register. -/
  | gprWritten (r : Reg) (v : Word) : ExecEnd i s (s.setGpr r v).advance
  /-- One general register, from a draw. -/
  | gprDrawn (r : Reg) (v : Word) : ExecEnd i s (s.drawn.setGpr r v).advance
  /-- The two registers of an update-form load. -/
  | gprsWritten (r p : Reg) (v w : Word) : ExecEnd i s ((s.setGpr r v).setGpr p w).advance
  /-- A defined result with its overflow and record requests (43_arith.md R340). -/
  | result (r : Reg) (v : Word) (oe o : Bool) :
      ExecEnd i s (((s.setGpr r v).writeOverflow oe o).recordIf (recordBit i) v).advance
  /-- A result that holds a draw (R342). -/
  | drawnResult (r : Reg) (v : Word) (oe o : Bool) :
      ExecEnd i s (((s.drawn.setGpr r v).writeOverflow oe o).recordDrawnIf (recordBit i)).advance
  /-- A sum of the carry family. -/
  | carrySum (r : Reg) (v : Word) (c oe o : Bool) :
      ExecEnd i s ((((s.setGpr r v).writeCarry c).writeOverflow oe o).recordCarryIf (recordBit i) v).advance
  /-- An algebraic shift (45_rotate_shift.md R450). -/
  | algebraic (r : Reg) (v : Word) (c : Bool) :
      ExecEnd i s (((s.setGpr r v).writeCarry c).recordIf (recordBit i) v).advance
  /-- A compare (44_compare_logical.md R400). -/
  | compared (f c : BitVec 3) (so : Bool) (hi : isCompare i = true) : ExecEnd i s (s.writeCompare f c so).advance
  /-- An explicit CR write (41_cr.md R264). -/
  | crWritten (cr : BitVec 32) (hi : writesCrExplicitly i = true) : ExecEnd i s { s with cr := cr }.advance
  /-- An explicit CR write of a draw (41_cr.md R263). -/
  | crDrawn (cr : BitVec 32) (hi : writesCrExplicitly i = true) : ExecEnd i s { s.drawn with cr := cr }.advance
  /-- A store (42_load_store.md R282). -/
  | stored (ea : Word) (n : Nat) (v : BitVec (8 * n)) (hi : isStore i = true) : ExecEnd i s (s.store ea n v).advance
  /-- An update-form store. -/
  | storedUpdate (ea : Word) (n : Nat) (v : BitVec (8 * n)) (r : Reg) (w : Word) (hi : isStore i = true) :
      ExecEnd i s ((s.store ea n v).setGpr r w).advance
  /-- `mtspr 1` (46_system.md R503). -/
  | xerMoved (rs : Reg) (so ov ca : Bool) (hi : i = .mtspr rs 1#10) :
      ExecEnd i s { s with so := so, ov := ov, ca := ca }.advance
  /-- `mtspr 8`. -/
  | lrMoved (rs : Reg) (v : Word) (hi : i = .mtspr rs 8#10) : ExecEnd i s { s with lr := some v }.advance
  /-- `mtspr 9`. -/
  | ctrMoved (rs : Reg) (v : Word) (hi : i = .mtspr rs 9#10) : ExecEnd i s { s with ctr := some v }.advance
  /-- A branch (40_branch.md R227): it ends at a multiple of 4 if it began at one. -/
  | branched (lr ctr : Option Word) (pc : Word) (hi : isBranch i = true)
      (hlr : lr = s.lr ∨ isLinking i = true ∧ lr = some (s.pc + 4#64))
      (hctr : ctr = s.ctr ∨ mayDecrement i = true ∧ ctr ≠ none)
      (hpc : s.pc.toNat % 4 = 0 → pc.toNat % 4 = 0) : ExecEnd i s { s with lr := lr, ctr := ctr, pc := pc }

/-! ### The ends of the shared operations -/

section Ends

variable {i : Instr} {s t : State}

theorem execEnd_of_finishResult {rt : Reg} {oe o : Bool} {res : Word}
    (h : finishResult rt oe (recordBit i) o res s = .next t) : ExecEnd i s t := by
  cases h
  exact .result ..

theorem execEnd_of_finishDrawn {rt : Reg} {oe o : Bool} {res : Word}
    (h : finishDrawn rt oe (recordBit i) o res s.drawn = .next t) : ExecEnd i s t := by
  cases h
  exact .drawnResult ..

theorem execEnd_of_addCarrying {rt : Reg} {oe c : Bool} {x y : Word}
    (h : addCarrying rt oe (recordBit i) x y c s = .next t) : ExecEnd i s t := by
  cases h
  exact .carrySum ..

theorem execEnd_of_finishRotate {ra : Reg} {res : Word}
    (h : finishRotate ra (recordBit i) res s = .next t) : ExecEnd i s t := by
  cases h
  exact .result (oe := false) (o := false) ..

theorem execEnd_of_finishAlgebraic {ra : Reg} {c : Bool} {res : Word}
    (h : finishAlgebraic ra (recordBit i) c res s = .next t) : ExecEnd i s t := by
  cases h
  exact .algebraic ..

theorem execEnd_of_logical1 {f : Word → Word} {rs ra : Reg}
    (h : logical1 f rs ra (recordBit i) s = .next t) : ExecEnd i s t := by
  obtain ⟨a, -, h⟩ := withOperand_next h
  exact execEnd_of_finishRotate h

theorem execEnd_of_logical2 {f : Word → Word → Word} {rs ra rb : Reg}
    (h : logical2 f rs ra rb (recordBit i) s = .next t) : ExecEnd i s t := by
  obtain ⟨a, -, h⟩ := withOperand_next h
  obtain ⟨b, -, h⟩ := withOperand_next h
  exact execEnd_of_finishRotate h

theorem execEnd_of_setCr {cr : BitVec 32} (hi : writesCrExplicitly i = true)
    (h : Host.Outcome.next { s with cr := cr }.advance = (.next t : Result)) : ExecEnd i s t := by
  cases h
  exact .crWritten _ hi

theorem execEnd_of_intrinsicNoop (h : intrinsicNoop s = .next t) : ExecEnd i s t := by
  cases h
  exact .advanced

theorem execEnd_of_trapIf {toBits : BitVec 5} {double : Bool} {a b : Word}
    (h : trapIf toBits double a b s = .next t) : ExecEnd i s t := by
  obtain ⟨-, rfl⟩ := trapIf_next h
  exact .advanced

theorem execEnd_of_load {mode : LoadMode} {n : Nat} {ea : Option Word} {rt : Reg}
    (h : load mode n ea rt s = .next t) : ExecEnd i s t := by
  obtain ⟨a, -, rfl⟩ := load_next h
  exact .gprWritten ..

theorem execEnd_of_loadUpdate {mode : LoadMode} {n : Nat} {ea : Option Word} {rt ra : Reg}
    (h : loadUpdate mode n ea rt ra s = .next t) : ExecEnd i s t := by
  obtain ⟨a, -, rfl⟩ := loadUpdate_next h
  exact .gprsWritten ..

theorem execEnd_of_store {reversed : Bool} {n : Nat} {ea : Option Word} {rs : Reg} (hi : isStore i = true)
    (h : store reversed n ea rs s = .next t) : ExecEnd i s t := by
  obtain ⟨a, v, -, -, rfl⟩ := store_next h
  exact .stored _ _ _ hi

theorem execEnd_of_storeUpdate {n : Nat} {ea : Option Word} {rs ra : Reg} (hi : isStore i = true)
    (h : storeUpdate n ea rs ra s = .next t) : ExecEnd i s t := by
  obtain ⟨a, v, -, -, rfl⟩ := storeUpdate_next h
  exact .storedUpdate _ _ _ _ _ hi

theorem execEnd_of_mfspr {rt : Reg} {spr : BitVec 10} (h : execMfspr rt spr s = .next t) : ExecEnd i s t := by
  unfold execMfspr at h
  split at h
  · cases h
  · cases h
    exact .gprDrawn ..
  · obtain ⟨v, -, h⟩ := withOperand_next h
    cases h
    exact .gprWritten ..

/-- The three numbers mtspr admits, and what the write through each leaves (46_system.md R503). -/
theorem execEnd_of_mtspr {rs : Reg} {spr : BitVec 10} (h : execMtspr rs spr s = .next t) :
    ExecEnd (.mtspr rs spr) s t := by
  unfold execMtspr State.writeSpr at h
  split_ifs at h with h1 h8 h9
  · obtain ⟨v, -, h⟩ := withOperand_next h
    cases h
    exact .xerMoved rs _ _ _ (by rw [h1])
  · obtain ⟨v, -, h⟩ := withOperand_next h
    cases h
    exact .lrMoved rs _ (by rw [h8])
  · obtain ⟨v, -, h⟩ := withOperand_next h
    cases h
    exact .ctrMoved rs _ (by rw [h9])
  · cases h

theorem execEnd_of_mftb {rt : Reg} {tbr : BitVec 10} (h : execMftb rt tbr s = .next t) : ExecEnd i s t := by
  unfold execMftb at h
  split at h
  · cases h
    exact .gprDrawn ..
  · cases h

theorem execEnd_of_mfocrf {rt : Reg} {fxm : BitVec 8} (h : execMfocrf rt fxm s = .next t) : ExecEnd i s t := by
  unfold execMfocrf at h
  split at h <;> cases h <;> exact .gprDrawn ..

theorem execEnd_of_mtocrf {rs : Reg} {fxm : BitVec 8} (hi : writesCrExplicitly i = true)
    (h : execMtocrf rs fxm s = .next t) : ExecEnd i s t := by
  obtain ⟨v, -, h⟩ := withOperand_next h
  split at h
  · exact execEnd_of_setCr hi h
  · cases h
    exact .crDrawn _ hi

/-! ### Branches: where the target is aligned, and which registers are written -/

theorem toNat_mod_four_of_low_bits {w : Nat} {x : BitVec w} (h0 : x.getLsbD 0 = false) (h1 : x.getLsbD 1 = false) :
    x.toNat % 4 = 0 := by
  have hlow : x.setWidth 2 = 0#2 := by
    apply BitVec.eq_of_getLsbD_eq
    intro k hk
    obtain rfl | rfl : k = 0 ∨ k = 1 := by omega
    · simp [h0]
    · simp [h1]
  simpa using congrArg BitVec.toNat hlow

/-- A displacement is a word count: its field stands above two zero bits (30_encoding.md R118). -/
theorem sext_append_zeros_aligned {n : Nat} (v : BitVec n) (hn : n + 2 ≤ 64) : (sext (v ++ 0#2)).toNat % 4 = 0 := by
  rw [sext_eq_signExtend _ (by omega) hn]
  apply toNat_mod_four_of_low_bits <;> rw [BitVec.getLsbD_signExtend] <;>
    simp [BitVec.getElem_append]

theorem registerTarget_aligned (v : Word) : (registerTarget v).toNat % 4 = 0 := by
  apply toNat_mod_four_of_low_bits <;> simp [registerTarget]

theorem branchTarget_aligned {aa : Bool} {disp cia : Word} (hd : disp.toNat % 4 = 0) (hc : cia.toNat % 4 = 0) :
    (branchTarget aa disp cia).toNat % 4 = 0 := by
  unfold branchTarget
  split
  · exact hd
  · rw [BitVec.toNat_add]
    omega

theorem execEnd_of_finishBranch {taken link : Bool} {target : Word} {ctr : Option Word} (hi : isBranch i = true)
    (hlink : isLinking i = link) (hctr : ctr = s.ctr ∨ mayDecrement i = true ∧ ctr ≠ none)
    (htarget : s.pc.toNat % 4 = 0 → target.toNat % 4 = 0)
    (h : finishBranch taken link target { s with ctr := ctr } = .next t) : ExecEnd i s t := by
  obtain ⟨-, rfl⟩ | ⟨-, rfl⟩ := finishBranch_next h
  · refine .branched _ ctr _ hi ?_ hctr htarget
    split
    · exact .inr ⟨hlink.trans ‹_›, rfl⟩
    · exact .inl rfl
  · exact .branched s.lr ctr _ hi (.inl rfl) hctr (advance_aligned s.pc)

theorem execEnd_of_bcStep {bo bi : BitVec 5} {link : Bool} {target : Option Word} (hi : isBranch i = true)
    (hlink : isLinking i = link) (hdec : ctrDecrements bo = true → mayDecrement i = true)
    (htarget : ∀ g, target = some g → s.pc.toNat % 4 = 0 → g.toNat % 4 = 0)
    (h : bcStep bo bi link target s = .next t) : ExecEnd i s t := by
  obtain ⟨g, hg, ⟨-, h⟩ | ⟨-, hd, c, -, h⟩ | ⟨-, -, h⟩⟩ := bcStep_next h
  · exact execEnd_of_finishBranch hi hlink (.inl rfl) (htarget g hg) h
  · exact execEnd_of_finishBranch hi hlink (.inr ⟨hdec hd, by simp⟩) (htarget g hg) h
  · exact execEnd_of_finishBranch hi hlink (.inl rfl) (htarget g hg) h

theorem execEnd_of_branchI {aa link : Bool} {li : BitVec 24} (hi : isBranch i = true)
    (hlink : isLinking i = link)
    (h : finishBranch true link (branchTarget aa (dispLI li) s.pc) s = .next t) : ExecEnd i s t :=
  execEnd_of_finishBranch hi hlink (.inl rfl) (branchTarget_aligned (sext_append_zeros_aligned li (by omega))) h

theorem execEnd_of_branchB {aa link : Bool} {bo bi : BitVec 5} {bd : BitVec 14} (hi : isBranch i = true)
    (hlink : isLinking i = link) (hdec : mayDecrement i = true)
    (h : branchB aa link bo bi bd s = .next t) : ExecEnd i s t := by
  refine execEnd_of_bcStep hi hlink (fun _ => hdec) (fun g hg hpc => ?_) h
  cases hg
  exact branchTarget_aligned (sext_append_zeros_aligned bd (by omega)) hpc

theorem registerTarget_map_aligned {o : Option Word} {g : Word} (hg : o.map registerTarget = some g) :
    g.toNat % 4 = 0 := by
  obtain ⟨v, -, rfl⟩ := Option.map_eq_some_iff.1 hg
  exact registerTarget_aligned v

theorem execEnd_of_branchToLR {link : Bool} {bo bi : BitVec 5} (hi : isBranch i = true)
    (hlink : isLinking i = link) (hdec : mayDecrement i = true)
    (h : branchToLR link bo bi s = .next t) : ExecEnd i s t :=
  execEnd_of_bcStep hi hlink (fun _ => hdec) (fun _ hg _ => registerTarget_map_aligned hg) h

/-- A branch to CTR is refused when it would decrement CTR (40_branch.md R214). -/
theorem execEnd_of_branchToCTR {link : Bool} {bo bi : BitVec 5} (hi : isBranch i = true)
    (hlink : isLinking i = link) (h : branchToCTR link bo bi s = .next t) : ExecEnd i s t := by
  unfold branchToCTR at h
  split at h
  · cases h
  · exact execEnd_of_bcStep hi hlink (fun hd => absurd hd ‹_›) (fun _ hg _ => registerTarget_map_aligned hg) h

end Ends

/-! ### Every instruction -/

/-- What an instruction can do: one that completes ends in one of the ways of `ExecEnd`. -/
theorem exec_next {i : Instr} {s t : State} (h : exec i s = .next t) : ExecEnd i s t := by
  cases i with
  | nop | sync | eieio | isync | dcbt | dcbtst | dcbst | dcbf | icbi => exact execEnd_of_intrinsicNoop h
  | tw | td =>
    obtain ⟨a, -, h⟩ := withOperand_next h
    obtain ⟨b, -, h⟩ := withOperand_next h
    exact execEnd_of_trapIf h
  | twi | tdi =>
    obtain ⟨a, -, h⟩ := withOperand_next h
    exact execEnd_of_trapIf h
  | li | lis | mfcr =>
    cases h
    exact .gprWritten ..
  | addi | addis | mulli =>
    obtain ⟨a, -, h⟩ := withOperand_next h
    cases h
    exact .gprWritten ..
  | add | subf | mulld | mullw | mulhd | mulhdu =>
    obtain ⟨a, -, h⟩ := withOperand_next h
    obtain ⟨b, -, h⟩ := withOperand_next h
    exact execEnd_of_finishResult h
  | neg =>
    obtain ⟨a, -, h⟩ := withOperand_next h
    exact execEnd_of_finishResult h
  | mulhw | mulhwu =>
    obtain ⟨a, -, h⟩ := withOperand_next h
    obtain ⟨b, -, h⟩ := withOperand_next h
    exact execEnd_of_finishDrawn h
  | divd | divdu =>
    obtain ⟨a, -, h⟩ := withOperand_next h
    obtain ⟨b, -, h⟩ := withOperand_next h
    split at h
    · exact execEnd_of_finishDrawn h
    · exact execEnd_of_finishResult h
  | divw | divwu =>
    obtain ⟨a, -, h⟩ := withOperand_next h
    obtain ⟨b, -, h⟩ := withOperand_next h
    dsimp only at h
    split at h <;> exact execEnd_of_finishDrawn h
  | addc | adde | subfc | subfe =>
    obtain ⟨a, -, h⟩ := withOperand_next h
    obtain ⟨b, -, h⟩ := withOperand_next h
    exact execEnd_of_addCarrying h
  | addic | addicRc | subfic | addme | addze | subfme | subfze =>
    obtain ⟨a, -, h⟩ := withOperand_next h
    exact execEnd_of_addCarrying h
  | cmp | cmpl =>
    obtain ⟨a, -, h⟩ := withOperand_next h
    obtain ⟨b, -, h⟩ := withOperand_next h
    cases h
    exact .compared _ _ _ rfl
  | cmpi | cmpli =>
    obtain ⟨a, -, h⟩ := withOperand_next h
    cases h
    exact .compared _ _ _ rfl
  | andiRc | andisRc | ori | oris | xori | xoris | mr | extsb | extsh | extsw | cntlzw | cntlzd =>
    exact execEnd_of_logical1 h
  | and | andc | or | orc | xor | nand | nor | eqv => exact execEnd_of_logical2 h
  | rlwinm | rldicl | rldicr | rldic =>
    obtain ⟨a, -, h⟩ := withOperand_next h
    exact execEnd_of_finishRotate h
  | rlwnm | rlwimi | rldimi | rldcl | rldcr | slw | srw | sld | srd =>
    obtain ⟨a, -, h⟩ := withOperand_next h
    obtain ⟨b, -, h⟩ := withOperand_next h
    exact execEnd_of_finishRotate h
  | sraw | srad =>
    obtain ⟨a, -, h⟩ := withOperand_next h
    obtain ⟨b, -, h⟩ := withOperand_next h
    exact execEnd_of_finishAlgebraic h
  | srawi | sradi =>
    obtain ⟨a, -, h⟩ := withOperand_next h
    exact execEnd_of_finishAlgebraic h
  | crand | crnand | cror | crxor | crnor | creqv | crandc | crorc | mcrf => exact execEnd_of_setCr rfl h
  | mtcrf =>
    obtain ⟨a, -, h⟩ := withOperand_next h
    exact execEnd_of_setCr rfl h
  | mtocrf => exact execEnd_of_mtocrf rfl h
  | mfocrf => exact execEnd_of_mfocrf h
  | mfspr => exact execEnd_of_mfspr h
  | mtspr => exact execEnd_of_mtspr h
  | mftb => exact execEnd_of_mftb h
  | lbz | lbzx | lhz | lhzx | lha | lhax | lwz | lwzx | lwa | lwax | ld | ldx | lhbrx | lwbrx =>
    exact execEnd_of_load h
  | lbzu | lbzux | lhzu | lhzux | lhau | lhaux | lwzu | lwzux | lwaux | ldu | ldux => exact execEnd_of_loadUpdate h
  | stb | stbx | sth | sthx | stw | stwx | std | stdx | sthbrx | stwbrx => exact execEnd_of_store rfl h
  | stbu | stbux | sthu | sthux | stwu | stwux | stdu | stdux => exact execEnd_of_storeUpdate rfl h
  | b | ba | bl | bla => exact execEnd_of_branchI rfl rfl h
  | bc | bca | bcl | bcla => exact execEnd_of_branchB rfl rfl rfl h
  | bclr | bclrl => exact execEnd_of_branchToLR rfl rfl rfl h
  | bcctr | bcctrl => exact execEnd_of_branchToCTR rfl rfl h
  | sc | reserved | passthrough | dcbz | tlbie | tlbiel | tlbia | tlbsync | slbmte | slbie | slbia | slbmfev
  | slbmfee | lwarx | ldarx | stwcx | stdcx | mfmsr | mtmsr | mtmsrd | rfid | hrfid => cases h

end Sys2Proof.Machine
end

section
/-! PROOFS. What every step keeps, read off the ends of `exec`. -/

namespace Sys2Proof.Machine

open Sys2Proof.Safety Sys2Proof.Config

section Kept

variable {i : Instr} {s t : State}

/-! ### The invariant -/

theorem markWritten_inSpace {ws : List Nat} (ea : Word) (n : Nat) (h : ∀ a ∈ ws, a < 2 ^ 64) :
    ∀ a ∈ markWritten ws ea n, a < 2 ^ 64 := by
  intro a ha
  obtain ha | ⟨k, -, rfl⟩ := (mem_markWritten ws ea n a).1 ha
  · exact h a ha
  · exact BitVec.isLt _

/-- The invariant speaks of memory, the written-bytes set and PC alone. -/
theorem inv_of_kept (h : Inv s) (hmem : t.mem = s.mem) (hw : t.written = s.written) (hpc : t.pc.toNat % 4 = 0) :
    Inv t :=
  ⟨hmem ▸ h.memCanonical, hw ▸ h.writtenRising, hw ▸ h.writtenInSpace, hpc⟩

/-- A store keeps memory canonical and the written-bytes set rising and inside the address space. -/
theorem inv_store (h : Inv s) (ea : Word) (n : Nat) (v : BitVec (8 * n)) : Inv (s.store ea n v) :=
  ⟨memWrite_wf _ _ _ _ h.memCanonical, markWritten_pairwise _ _ _ h.writtenRising,
    markWritten_inSpace ea n h.writtenInSpace, h.pcAligned⟩

theorem ExecEnd.inv (h : ExecEnd i s t) (hs : Inv s) : Inv t := by
  have hpc := advance_aligned s.pc hs.pcAligned
  cases h with
  | stored ea n v => exact inv_of_kept (inv_store hs ea n v) rfl rfl hpc
  | storedUpdate ea n v r w => exact inv_of_kept (inv_store hs ea n v) rfl rfl hpc
  | branched lr ctr pc _ _ _ halign => exact inv_of_kept hs rfl rfl (halign hs.pcAligned)
  | _ => exact inv_of_kept hs (by simp) (by simp) (by simpa using hpc)

/-! ### Set registers, marks and the launch -/

theorem setGpr_keeps_set (s : State) (p : Reg) (v : Word) {r : Reg} (h : s.readGpr r ≠ none) :
    (s.setGpr p v).readGpr r ≠ none := by
  rw [State.setGpr_readGpr]
  split
  · simp
  · exact h

theorem ExecEnd.gpr_set (h : ExecEnd i s t) {r : Reg} (hr : s.readGpr r ≠ none) : t.readGpr r ≠ none := by
  cases h with
  | gprWritten p v => exact setGpr_keeps_set s p v hr
  | gprDrawn p v => exact setGpr_keeps_set s.drawn p v hr
  | gprsWritten p q v w => exact setGpr_keeps_set _ q w (setGpr_keeps_set s p v hr)
  | result p v | carrySum p v | algebraic p v => simpa using setGpr_keeps_set s p v hr
  | drawnResult p v => simpa using setGpr_keeps_set s.drawn p v hr
  | storedUpdate ea n v p w => exact setGpr_keeps_set (s.store ea n v) p w hr
  | _ => exact hr

theorem ExecEnd.marks_kept (h : ExecEnd i s t) {a : Nat} (ha : a ∈ s.written) : a ∈ t.written := by
  cases h with
  | stored ea n | storedUpdate ea n => exact (mem_markWritten _ ea n a).2 (.inl ha)
  | _ => simpa using ha

theorem ExecEnd.launchKept (h : ExecEnd i s t) : LaunchKept s t := by
  cases h <;> simp [LaunchKept]

theorem ExecEnd.pc_of_not_branch (h : ExecEnd i s t) (hi : isBranch i = false) : t.pc = s.pc + 4#64 := by
  cases h with
  | branched _ _ _ hb => simp [hb] at hi
  | _ => simp

/-- LR is kept, or linked by a branch, or written by `mtspr 8`. -/
theorem ExecEnd.lr_writers (h : ExecEnd i s t) :
    t.lr = s.lr ∨ (isLinking i = true ∨ ∃ rs, i = .mtspr rs 8#10) ∧ t.lr ≠ none := by
  cases h with
  | lrMoved rs v hi => exact .inr ⟨.inr ⟨rs, hi⟩, by simp⟩
  | branched lr ctr pc _ hlr =>
    obtain hlr | ⟨hi, hlr⟩ := hlr
    · exact .inl hlr
    · exact .inr ⟨.inl hi, by simp [hlr]⟩
  | _ => exact .inl (by simp)

/-- CTR is kept, or decremented by a branch, or written by `mtspr 9`. -/
theorem ExecEnd.ctr_writers (h : ExecEnd i s t) :
    t.ctr = s.ctr ∨ (mayDecrement i = true ∨ ∃ rs, i = .mtspr rs 9#10) ∧ t.ctr ≠ none := by
  cases h with
  | ctrMoved rs v hi => exact .inr ⟨.inr ⟨rs, hi⟩, by simp⟩
  | branched lr ctr pc _ _ hctr =>
    obtain hctr | ⟨hi, hctr⟩ := hctr
    · exact .inl hctr
    · exact .inr ⟨.inl hi, hctr⟩
  | _ => exact .inl (by simp)

/-! ### XER and CR -/

theorem ExecEnd.xerKept (h : ExecEnd i s t) (hp : s.params.caOvMode = .reference) (hi : ∀ rs, i ≠ .mtspr rs 1#10) :
    XerKept s t := by
  cases h with
  | result | drawnResult | carrySum | algebraic =>
    simp [XerKept, State.writeCarry_reference, State.writeOverflow_reference, hp]
  | xerMoved rs _ _ _ h => exact absurd h (hi rs)
  | _ => exact ⟨rfl, rfl, rfl⟩

/-- Bit 0 of the flag request: the instruction records or compares (10_state.md R44). -/
theorem flagRequest_getLsbD_zero (i : Instr) : (flagRequest i).getLsbD 0 = (recordBit i || isCompare i) := by
  unfold flagRequest
  cases carryProducing i <;> cases recordBit i || isCompare i <;> rfl

theorem ExecEnd.cr_kept (h : ExecEnd i s t) (hf : (flagRequest i).getLsbD 0 = false)
    (hw : writesCrExplicitly i = false) : t.cr = s.cr := by
  rw [flagRequest_getLsbD_zero, Bool.or_eq_false_iff] at hf
  obtain ⟨hr, hc⟩ := hf
  cases h with
  | result | drawnResult | carrySum | algebraic =>
    simp [hr, State.recordIf, State.recordDrawnIf, State.recordCarryIf]
  | compared _ _ _ h => simp [h] at hc
  | crWritten _ h | crDrawn _ h => simp [h] at hw
  | _ => rfl

end Kept

/-! ### The statements -/

/-- Settles O14: a step runs one instruction, and each end of an instruction keeps the invariant. -/
theorem stepKeepsInvariant : Obligations.StepKeepsInvariant := by
  intro s t hs h
  obtain ⟨-, i, -, hi⟩ := step_next h
  exact (exec_next hi).inv hs

/-- Settles O15: memory and the written-bytes set start empty, and PC at the entry 0x1000. -/
theorem resetMeetsInvariant : Obligations.ResetMeetsInvariant :=
  ⟨Memory.nil_wf, .nil, nofun, rfl⟩

/-- Settles O17: no end of an instruction unsets a register, lifts a mark or touches the launch. -/
theorem stepKeepsSetAndLaunch : Obligations.StepKeepsSetAndLaunch := by
  intro s t h
  obtain ⟨-, i, -, hi⟩ := step_next h
  have hend := exec_next hi
  refine ⟨fun r => hend.gpr_set, fun hlr => ?_, fun hctr => ?_, fun a => hend.marks_kept, hend.launchKept⟩
  · obtain h | ⟨-, h⟩ := hend.lr_writers
    · rwa [h]
    · exact h
  · obtain h | ⟨-, h⟩ := hend.ctr_writers
    · rwa [h]
    · exact h

/-- Settles O18: only a branch ends with a PC of its own. -/
theorem nonBranchAdvancesPc : Obligations.NonBranchAdvancesPc :=
  fun _ _ _ hi h => (exec_next h).pc_of_not_branch hi

/-- Settles O21: the writers of LR and of CTR among the ends of an instruction. -/
theorem linkAndCountWriters : Obligations.LinkAndCountWriters := by
  intro i s t h
  refine ⟨fun hl hm => ?_, fun hd hm => ?_⟩
  · obtain h | ⟨h | ⟨rs, h⟩, -⟩ := (exec_next h).lr_writers
    · exact h
    · simp [h] at hl
    · exact absurd h (hm rs)
  · obtain h | ⟨h | ⟨rs, h⟩, -⟩ := (exec_next h).ctr_writers
    · exact h
    · simp [h] at hd
    · exact absurd h (hm rs)

/-- Settles O19: under `reference` the carry and overflow requests leave XER alone. -/
theorem xerWrittenOnlyByMtxer : Obligations.XerWrittenOnlyByMtxer :=
  fun _ _ _ hp hi h => (exec_next h).xerKept hp hi

/-- Settles O22: no record request, no compare and no explicit write leave no way to write CR. -/
theorem crWrittenOnlyOnRequest : Obligations.CrWrittenOnlyOnRequest :=
  fun _ _ _ hf hw h => (exec_next h).cr_kept hf hw

end Sys2Proof.Machine
end

section
/-! PROOFS. An unset source register stops an instruction before it does anything else (10_state.md R53, 60 R602). -/

namespace Sys2Proof.Machine

open Sys2Proof.Safety Sys2Proof.Config

/-- One of the registers is unset. -/
def UnsetIn (s : State) (rs : List Reg) : Prop := ∃ r ∈ rs, s.readGpr r = none

section Unset

variable {s : State} {rs ra rb : Reg}

theorem not_unsetIn_nil : ¬ UnsetIn s [] := by simp [UnsetIn]

theorem unsetIn_cons {r : Reg} {l : List Reg} : UnsetIn s (r :: l) ↔ s.readGpr r = none ∨ UnsetIn s l := by
  simp [UnsetIn]

theorem unsetIn_singleton : UnsetIn s [ra] ↔ s.readGpr ra = none := by simp [UnsetIn]

theorem unsetIn_pair : UnsetIn s [ra, rb] ↔ s.readGpr ra = none ∨ s.readGpr rb = none := by simp [UnsetIn]

/-- The operand `(RA|0)` reads what `baseSource` lists. -/
theorem unsetIn_baseSource : UnsetIn s (baseSource ra) ↔ s.readGprOrZero ra = none := by
  unfold baseSource State.readGprOrZero
  split
  · simp [UnsetIn]
  · exact unsetIn_singleton

/-! ### Operands -/

theorem withOperand_unset {α : Type} {o : Option α} {k : α → Result} (h : o = none) :
    withOperand o k = .fault .unsetRegister := by
  rw [h, withOperand_none]

theorem withOperand_fault_right {α β : Type} {o : Option α} {p : Option β} {k : α → β → Result} (h : p = none) :
    (withOperand o fun a => withOperand p (k a)) = .fault .unsetRegister := by
  cases o with
  | none => rfl
  | some a => exact (withOperand_some a _).trans (withOperand_unset h)

theorem operand_unset {k : Word → Result} (h : UnsetIn s [ra]) :
    withOperand (s.readGpr ra) k = .fault .unsetRegister :=
  withOperand_unset (unsetIn_singleton.1 h)

theorem operands_unset {k : Word → Word → Result} (h : UnsetIn s [ra, rb]) :
    (withOperand (s.readGpr ra) fun a => withOperand (s.readGpr rb) (k a)) = .fault .unsetRegister := by
  obtain h | h := unsetIn_pair.1 h
  · exact withOperand_unset h
  · exact withOperand_fault_right h

theorem base_unset {k : Word → Result} (h : UnsetIn s (baseSource ra)) :
    withOperand (s.readGprOrZero ra) k = .fault .unsetRegister :=
  withOperand_unset (unsetIn_baseSource.1 h)

/-! ### Effective addresses -/

theorem eaD_unset {d : BitVec 16} (h : UnsetIn s (baseSource ra)) : eaD ra d s = none := by
  simp [eaD, unsetIn_baseSource.1 h]

theorem eaDS_unset {ds : BitVec 14} (h : UnsetIn s (baseSource ra)) : eaDS ra ds s = none := by
  simp [eaDS, unsetIn_baseSource.1 h]

theorem eaX_unset (h : UnsetIn s (rb :: baseSource ra)) : eaX ra rb s = none := by
  obtain h | h := unsetIn_cons.1 h
  · simp [eaX, h]
  · simp [eaX, unsetIn_baseSource.1 h]

theorem eaDUpdate_unset {d : BitVec 16} (h : UnsetIn s [ra]) : eaDUpdate ra d s = none := by
  simp [eaDUpdate, unsetIn_singleton.1 h]

theorem eaDSUpdate_unset {ds : BitVec 14} (h : UnsetIn s [ra]) : eaDSUpdate ra ds s = none := by
  simp [eaDSUpdate, unsetIn_singleton.1 h]

theorem eaXUpdate_unset (h : UnsetIn s [ra, rb]) : eaXUpdate ra rb s = none := by
  obtain h | h := unsetIn_pair.1 h <;> simp [eaXUpdate, h]

/-! ### Loads and stores -/

theorem load_unset {mode : LoadMode} {n : Nat} {ea : Option Word} {rt : Reg} (h : ea = none) :
    load mode n ea rt s = .fault .unsetRegister :=
  withOperand_unset h

theorem loadUpdate_unset {mode : LoadMode} {n : Nat} {ea : Option Word} {rt : Reg} (h : ea = none) :
    loadUpdate mode n ea rt ra s = .fault .unsetRegister :=
  withOperand_unset h

/-- `sources` are the registers of the address. -/
theorem store_unset {reversed : Bool} {n : Nat} {ea : Option Word} {sources : List Reg}
    (hea : UnsetIn s sources → ea = none) (h : UnsetIn s (rs :: sources)) :
    store reversed n ea rs s = .fault .unsetRegister := by
  obtain h | h := unsetIn_cons.1 h
  · exact withOperand_fault_right h
  · exact withOperand_unset (hea h)

theorem storeUpdate_unset {n : Nat} {ea : Option Word} {sources : List Reg}
    (hea : UnsetIn s sources → ea = none) (h : UnsetIn s (rs :: sources)) :
    storeUpdate n ea rs ra s = .fault .unsetRegister := by
  obtain h | h := unsetIn_cons.1 h
  · exact withOperand_fault_right h
  · exact withOperand_unset (hea h)

/-! ### The instructions whose sources depend on a parameter or an operand -/

/-- Only `RLDCR_SHIFT` = register reads GPR[RB] (45_rotate_shift.md R459). -/
theorem rldcr_unset {me : BitVec 6} {rc : Bool} (h : UnsetIn s (gprSources s.params (.rldcr rs ra rb me rc))) :
    execRldcr rs ra rb me rc s = .fault .unsetRegister := by
  change UnsetIn s (if s.params.rldcrShift = .register then [rs, rb] else [rs]) at h
  split at h
  · obtain h | h := unsetIn_pair.1 h
    · exact withOperand_unset h
    · exact withOperand_fault_right (by simp [rldcrShift, *])
  · exact operand_unset h

/-- A number outside the three of mtspr is refused before RS is read (60 R602). -/
theorem mtspr_unset {spr : BitVec 10} (h : UnsetIn s (gprSources s.params (.mtspr rs spr))) :
    execMtspr rs spr s = .fault .unsetRegister := by
  change UnsetIn s (if spr = 1#10 ∨ spr = 8#10 ∨ spr = 9#10 then [rs] else []) at h
  split at h
  · obtain rfl | rfl | rfl := ‹spr = 1#10 ∨ spr = 8#10 ∨ spr = 9#10› <;> exact operand_unset h
  · exact absurd h not_unsetIn_nil

end Unset

/-- Every instruction reads its source registers before it can end otherwise. -/
theorem exec_unset {i : Instr} {s : State} (h : UnsetIn s (gprSources s.params i)) :
    exec i s = .fault .unsetRegister := by
  cases i with
  | addi | addis => exact base_unset h
  | addic | addicRc | subfic | mulli | cmpi | cmpli | twi | tdi | addme | addze | subfme | subfze | neg | andiRc
  | andisRc | ori | oris | xori | xoris | mr | extsb | extsh | extsw | cntlzw | cntlzd | rlwinm | rldicl | rldicr
  | rldic | srawi | sradi | mtcrf | mtocrf => exact operand_unset h
  | add | addc | adde | subf | subfc | subfe | mulld | mullw | divd | divdu | divw | divwu | mulhd | mulhdu | mulhw
  | mulhwu | cmp | cmpl | tw | td | and | andc | or | orc | xor | nand | nor | eqv | slw | srw | sraw | sld | srd
  | srad | rlwnm | rldcl | rlwimi | rldimi => exact operands_unset h
  | rldcr => exact rldcr_unset h
  | mtspr => exact mtspr_unset h
  | lbz | lhz | lha | lwz => exact load_unset (eaD_unset h)
  | lwa | ld => exact load_unset (eaDS_unset h)
  | lbzx | lhzx | lhax | lwzx | lwax | ldx | lhbrx | lwbrx => exact load_unset (eaX_unset h)
  | lbzu | lhzu | lhau | lwzu => exact loadUpdate_unset (eaDUpdate_unset h)
  | ldu => exact loadUpdate_unset (eaDSUpdate_unset h)
  | lbzux | lhzux | lhaux | lwzux | lwaux | ldux => exact loadUpdate_unset (eaXUpdate_unset h)
  | stb | sth | stw => exact store_unset eaD_unset h
  | std => exact store_unset eaDS_unset h
  | stbx | sthx | stwx | stdx | sthbrx | stwbrx => exact store_unset eaX_unset h
  | stbu | sthu | stwu => exact storeUpdate_unset eaDUpdate_unset h
  | stdu => exact storeUpdate_unset eaDSUpdate_unset h
  | stbux | sthux | stwux | stdux => exact storeUpdate_unset eaXUpdate_unset h
  | _ => exact absurd h not_unsetIn_nil

/-- Settles O13: the unset register is one of those the instruction reads first. -/
theorem unsetSourceFaults : Obligations.UnsetSourceFaults :=
  fun _ _ r hr hunset => exec_unset ⟨r, hr, hunset⟩

end Sys2Proof.Machine
end

section
/-! PROOFS. The ends of the arithmetic instructions under each `CA_OV_MODE`: results, CR0, XER and the frame
(43_arith.md R340 to R342; 10_state.md R46 to R48). -/

namespace Sys2Proof.Machine

open Sys2Proof.Safety Sys2Proof.Config Sys2Proof.Claims

/-! ### Operands that are set -/

theorem withOperand_of_some {α : Type} {o : Option α} {a : α} {k : α → Result} (h : o = some a) :
    withOperand o k = k a := by
  rw [h, withOperand_some]

theorem withOperands_of_some {α β : Type} {o : Option α} {p : Option β} {a : α} {b : β} {k : α → β → Result}
    (ha : o = some a) (hb : p = some b) : (withOperand o fun x => withOperand p (k x)) = k a b := by
  rw [withOperand_of_some ha, withOperand_of_some hb]

/-! ### Frames, under every mode -/

section Frames

variable (rt : Reg) (oe rc o c : Bool) (res : Word) (s : State)

theorem frame_result : Frame [rt] s (((s.setGpr rt res).writeOverflow oe o).recordIf rc res).advance := by
  refine frame_of (fun q hq => ?_) (by simp) (by simp) (by simp) (by simp) (by simp) (by simp) (by simp) (by simp)
  simpa using gprKept_setGpr s rt res q hq

theorem frame_drawnResult :
    Frame [rt] s (((s.drawn.setGpr rt res).writeOverflow oe o).recordDrawnIf rc).advance := by
  refine frame_of (fun q hq => ?_) (by simp) (by simp) (by simp) (by simp) (by simp) (by simp) (by simp) (by simp)
  simpa using gprKept_setGpr s.drawn rt res q hq

theorem frame_carrySum :
    Frame [rt] s ((((s.setGpr rt res).writeCarry c).writeOverflow oe o).recordCarryIf rc res).advance := by
  refine frame_of (fun q hq => ?_) (by simp) (by simp) (by simp) (by simp) (by simp) (by simp) (by simp) (by simp)
  simpa using gprKept_setGpr s rt res q hq

theorem frame_algebraic : Frame [rt] s (((s.setGpr rt res).writeCarry c).recordIf rc res).advance := by
  refine frame_of (fun q hq => ?_) (by simp) (by simp) (by simp) (by simp) (by simp) (by simp) (by simp) (by simp)
  simpa using gprKept_setGpr s rt res q hq

end Frames

/-! ### The words of the sums -/

theorem caWord_eq (s : State) : (BitVec.ofBool s.ca).setWidth 64 = caWord s := by
  unfold caWord
  cases s.ca <;> rfl

theorem add_carry_false (x y : Word) : x + y + (BitVec.ofBool false).setWidth 64 = x + y := by simp

theorem add_carry_true (x y : Word) : x + y + (BitVec.ofBool true).setWidth 64 = x + y + 1#64 := rfl

theorem add_carry_ca (x y : Word) (s : State) : x + y + (BitVec.ofBool s.ca).setWidth 64 = x + y + caWord s := by
  rw [caWord_eq]

theorem add_minusOne_ca (x : Word) (s : State) :
    x + minusOne + (BitVec.ofBool s.ca).setWidth 64 = x + caWord s + 0xFFFFFFFFFFFFFFFF#64 := by
  rw [caWord_eq, BitVec.add_assoc, BitVec.add_comm minusOne, ← BitVec.add_assoc]
  rfl

theorem add_zero_ca (x : Word) (s : State) : x + 0#64 + (BitVec.ofBool s.ca).setWidth 64 = x + caWord s := by
  rw [caWord_eq, BitVec.add_zero]

/-- Subtraction by the complement (R356, R363). -/
theorem not_add_add_one (x y : Word) : ~~~x + y + (BitVec.ofBool true).setWidth 64 = y - x := by
  rw [add_carry_true]
  bv_omega

theorem not_add_zero_add_one (x : Word) : ~~~x + 0#64 + (BitVec.ofBool true).setWidth 64 = -x := by
  rw [not_add_add_one]
  simp

theorem signedLow_eq (v : Word) : signedLow v = (lowWord v).toInt := by rw [signedLow, lowWord_eq]

theorem unsignedLow_eq (v : Word) : unsignedLow v = (lowWord v).toNat := by rw [unsignedLow, lowWord_eq]

/-! ### The carry family under `reference` -/

theorem requests_reference {s : State} (c oe o : Bool) (h : s.params.caOvMode = .reference) :
    (s.writeCarry c).writeOverflow oe o = s := by
  rw [State.writeCarry_reference s c h, State.writeOverflow_reference s oe o h]

/-- A sum of the carry family, its result named. -/
theorem addCarrying_eq {rt : Reg} {oe rc c : Bool} {x y res : Word} {s : State}
    (hres : x + y + (BitVec.ofBool c).setWidth 64 = res) :
    addCarrying rt oe rc x y c s
      = .next ((((s.setGpr rt res).writeCarry (carryOut x y c)).writeOverflow oe (sumOverflow x y c)).recordCarryIf rc
          res).advance := by
  rw [← hres]
  rfl

theorem carryFamily_of_addCarrying {i : Instr} {rt : Reg} {oe rc c : Bool} {x y res : Word} {s : State}
    (hi : exec i s = addCarrying rt oe rc x y c s) (hres : x + y + (BitVec.ofBool c).setWidth 64 = res) :
    CarryFamily i rt rc res s := by
  intro hp
  have hreq := requests_reference (s := s.setGpr rt res) (carryOut x y c) oe (sumOverflow x y c) hp
  refine ⟨_, hi.trans (addCarrying_eq hres), by simp, ?_, ?_, frame_carrySum ..⟩
  · rw [hreq, State.recordCarryIf_reference (s.setGpr rt res) _ _ hp]
    cases rc with
    | false => rfl
    | true => exact recordCarryDraw_drawn s (s.setGpr rt res) rfl
  · rw [hreq]
    simp [XerKept]

theorem sext16_eq (si : BitVec 16) : sext si = si.signExtend 64 := sext_eq_signExtend si (by omega) (by omega)

/-- Settles O38: each instruction is one sum of the carry family. -/
theorem carryFamilyUnderReference : Obligations.CarryFamilyUnderReference := by
  refine ⟨?addc, ?adde, ?addme, ?addze, ?subfc, ?subfe, ?subfme, ?subfze, ?immediate⟩
  case addc =>
    intro rt ra rb oe rc s a b ha hb
    exact carryFamily_of_addCarrying (withOperands_of_some ha hb) (add_carry_false a b)
  case adde =>
    intro rt ra rb oe rc s a b ha hb
    exact carryFamily_of_addCarrying (withOperands_of_some ha hb) (add_carry_ca a b s)
  case addme =>
    intro rt ra oe rc s a ha
    exact carryFamily_of_addCarrying (withOperand_of_some ha) (add_minusOne_ca a s)
  case addze =>
    intro rt ra oe rc s a ha
    exact carryFamily_of_addCarrying (withOperand_of_some ha) (add_zero_ca a s)
  case subfc =>
    intro rt ra rb oe rc s a b ha hb
    exact carryFamily_of_addCarrying (withOperands_of_some ha hb) (add_carry_true (~~~a) b)
  case subfe =>
    intro rt ra rb oe rc s a b ha hb
    exact carryFamily_of_addCarrying (withOperands_of_some ha hb) (add_carry_ca (~~~a) b s)
  case subfme =>
    intro rt ra oe rc s a ha
    exact carryFamily_of_addCarrying (withOperand_of_some ha) (add_minusOne_ca (~~~a) s)
  case subfze =>
    intro rt ra oe rc s a ha
    exact carryFamily_of_addCarrying (withOperand_of_some ha) (add_zero_ca (~~~a) s)
  case immediate =>
    intro rt ra si s a ha
    rw [← sext16_eq]
    exact ⟨carryFamily_of_addCarrying (withOperand_of_some ha) (add_carry_false a _),
      carryFamily_of_addCarrying (withOperand_of_some ha) (add_carry_false a _),
      carryFamily_of_addCarrying (withOperand_of_some ha) (not_add_add_one a _)⟩

end Sys2Proof.Machine
end

section
/-! PROOFS. The ends of the arithmetic instructions under `havoc` (43_arith.md R341; assumption logs 13 and 14). -/

namespace Sys2Proof.Machine

open Sys2Proof.Safety Sys2Proof.Config Sys2Proof.Claims

/-! ### The requests -/

theorem draw_congr {s d : State} (h : s.nextDraw = d.nextDraw) (n : Nat) : s.draw n = d.draw n := by
  rw [State.draw, State.draw, h]

theorem drawn_draw_congr {s d : State} (h : s.nextDraw = d.nextDraw) (n : Nat) : s.drawn.draw n = d.drawn.draw n :=
  draw_congr (congrArg (· + 1) h) n

theorem State.writeCarry_havoc (s : State) (c : Bool) (h : s.params.caOvMode = .havoc) :
    s.writeCarry c = { s.drawn with ca := s.draw 1 == 1#1 } := by
  simp [State.writeCarry, h]

theorem State.writeOverflow_havoc (s : State) (o : Bool) (h : s.params.caOvMode = .havoc) :
    s.writeOverflow true o
      = { s.drawn.drawn with ov := s.draw 1 == 1#1, so := s.so || (s.drawn.draw 1 == 1#1) } := by
  simp [State.writeOverflow, h]

theorem State.recordCarryIf_havoc (s : State) (rc : Bool) (v : Word) (h : s.params.caOvMode = .havoc) :
    s.recordCarryIf rc v = if rc then s.recordCarryDraw else s := by
  simp [State.recordCarryIf, h]

/-- The overflow request made on `u`, whose draws are those of `d` and whose OV and SO are those of `s`. -/
theorem writeOverflow_havocOverflow {d s u t : State} (oe o : Bool) (hp : u.params.caOvMode = .havoc)
    (hd : u.nextDraw = d.nextDraw) (hov : u.ov = s.ov) (hso : u.so = s.so)
    (htov : t.ov = (u.writeOverflow oe o).ov) (htso : t.so = (u.writeOverflow oe o).so) : HavocOverflow oe d s t := by
  unfold HavocOverflow
  rw [htov, htso]
  cases oe with
  | false => exact ⟨hov, hso⟩
  | true =>
    rw [State.writeOverflow_havoc u o hp, ← hso, ← draw_congr hd, ← drawn_draw_congr hd]
    exact ⟨rfl, rfl⟩

theorem writeOverflow_nextDraw {d u : State} (oe o : Bool) (hp : u.params.caOvMode = .havoc)
    (hd : u.nextDraw = d.nextDraw) : (u.writeOverflow oe o).nextDraw = (afterOverflowDraws oe d).nextDraw := by
  cases oe with
  | false => exact hd
  | true => simp [State.writeOverflow_havoc u o hp, afterOverflowDraws, hd]

/-- The record request takes SO as the instruction leaves it (assumption log 14). -/
theorem recordIf_recordedAfter {s u : State} (rc : Bool) (v : Word) (hcr : u.cr = s.cr) :
    RecordedAfter rc v s (u.recordIf rc v).advance := by
  cases rc with
  | false => simpa [RecordedAfter, State.recordIf] using hcr
  | true => exact compared_congr hcr.symm rfl (writeCompare_compared u 0#3 v.toInt 0 u.so)

theorem recordDrawnIf_drawnAfter {s u : State} {c : BitVec 3} (rc : Bool) (hcr : u.cr = s.cr) (hc : u.draw 3 = c) :
    DrawnAfter rc c s (u.recordDrawnIf rc).advance := by
  subst hc
  simpa [DrawnAfter] using recordDrawnIf_drawn s u rc hcr

/-! ### Sums, products and shifts -/

theorem havocWrites_of_addCarrying {i : Instr} {rt : Reg} {oe rc c : Bool} {x y res : Word} {s : State}
    (family : Bool) (hf : rc = true → family = true)
    (hi : exec i s = addCarrying rt oe rc x y c s) (hres : x + y + (BitVec.ofBool c).setWidth 64 = res) :
    HavocWrites i rt true oe rc family res s := by
  intro hp
  have hcarry : ((s.setGpr rt res).writeCarry (carryOut x y c)).nextDraw = s.drawn.nextDraw := by
    rw [State.writeCarry_havoc (s.setGpr rt res) _ hp]
    rfl
  refine ⟨_, hi.trans (addCarrying_eq hres), by simp, ?_, ?_, ?_, frame_carrySum ..⟩
  · simp [State.writeCarry_havoc (s.setGpr rt res) _ hp]
  · exact writeOverflow_havocOverflow oe (sumOverflow x y c) (by simpa using hp) hcarry (by simp) (by simp)
      (by simp) (by simp)
  · have hdraw := writeOverflow_nextDraw oe (sumOverflow x y c) (by simpa using hp) hcarry
    rw [State.recordCarryIf_havoc _ _ _ (by simpa using hp)]
    cases rc with
    | false => simp [RecordedAfter]
    | true =>
      have h := recordCarryDraw_drawn s
        (((s.setGpr rt res).writeCarry (carryOut x y c)).writeOverflow oe (sumOverflow x y c)) (by simp)
      rw [draw_congr hdraw, drawn_draw_congr hdraw] at h
      simpa [hf rfl, afterDraw] using h

theorem havocWrites_of_finishResult {i : Instr} {rt : Reg} {oe rc o : Bool} {v res : Word} {s : State}
    (hi : exec i s = finishResult rt oe rc o v s) (hres : v = res) : HavocWrites i rt false oe rc false res s := by
  subst hres
  intro hp
  refine ⟨_, hi, by simp, by simp, ?_, ?_, frame_result ..⟩
  · exact writeOverflow_havocOverflow (u := s.setGpr rt v) oe o hp rfl rfl rfl (by simp) (by simp)
  · rw [Bool.and_false]
    exact recordIf_recordedAfter rc v (by simp)

theorem havocWrites_of_finishAlgebraic {i : Instr} {ra : Reg} {rc c : Bool} {v res : Word} {s : State}
    (hi : exec i s = finishAlgebraic ra rc c v s) (hres : v = res) : HavocWrites i ra true false rc false res s := by
  subst hres
  intro hp
  refine ⟨_, hi, by simp, ?_, ⟨by simp, by simp⟩, ?_, frame_algebraic ..⟩
  · simp [State.writeCarry_havoc (s.setGpr ra v) _ hp]
  · rw [Bool.and_false]
    exact recordIf_recordedAfter rc v (by simp)

/-! ### Divisions -/

section Divisions

variable {i : Instr} {rt : Reg} {oe rc o : Bool} {s : State} {undefinedQuotient drawnResult : Prop}
  {defined : State → Prop}

theorem finishDrawn_havoc {res : Word} (hi : exec i s = finishDrawn rt oe rc o res s.drawn)
    (hp : s.params.caOvMode = .havoc) :
    Completes i s fun t => t.readGpr rt = some res ∧ DrawnAfter rc ((afterOverflowDraws oe s.drawn).draw 3) s t
      ∧ HavocOverflow oe s.drawn s t ∧ t.ca = s.ca ∧ Frame [rt] s t := by
  refine ⟨_, hi, by simp, ?_, ?_, by simp, frame_drawnResult ..⟩
  · exact recordDrawnIf_drawnAfter rc (by simp)
      (draw_congr (writeOverflow_nextDraw (d := s.drawn) (u := s.drawn.setGpr rt res) oe o hp rfl) 3)
  · exact writeOverflow_havocOverflow (u := s.drawn.setGpr rt res) oe o hp rfl rfl rfl (by simp) (by simp)

/-- An undefined quotient. -/
theorem havocDivides_of_undefined (hi : exec i s = finishDrawn rt oe rc o (s.draw 64) s.drawn)
    (hu : undefinedQuotient) (hd : drawnResult) :
    HavocDivides i rt oe rc undefinedQuotient drawnResult defined s := by
  intro hp
  obtain ⟨t, ht, hrt, hcr, hov, hca, hframe⟩ := finishDrawn_havoc hi hp
  exact ⟨t, ht, ⟨fun _ => ⟨hrt, hcr⟩, fun h => absurd hu h⟩, fun _ => hov, fun h => absurd hd h, hca, hframe⟩

/-- A word quotient, whose high half is a draw. -/
theorem havocDivides_of_word {q : BitVec 32} (hi : exec i s = finishDrawn rt oe rc o (s.draw 32 ++ q) s.drawn)
    (hu : ¬ undefinedQuotient) :
    HavocDivides i rt oe rc undefinedQuotient True
      (WordQuotientAfter rt rc q ((afterOverflowDraws oe s.drawn).draw 3) s) s := by
  intro hp
  obtain ⟨t, ht, hrt, hcr, hov, hca, hframe⟩ := finishDrawn_havoc hi hp
  exact ⟨t, ht, ⟨fun h => absurd h hu, fun _ => ⟨hrt, hcr⟩⟩, fun _ => hov, fun h => absurd trivial h, hca, hframe⟩

/-- A doubleword quotient. -/
theorem havocDivides_of_full {q : Word} (hi : exec i s = finishResult rt oe rc o q s)
    (hu : ¬ undefinedQuotient) (hd : ¬ drawnResult) :
    HavocDivides i rt oe rc undefinedQuotient drawnResult (FullQuotientAfter rt rc q s) s := by
  intro hp
  obtain ⟨t, ht, hrt, hca, hov, hcr, hframe⟩ := havocWrites_of_finishResult hi rfl hp
  rw [Bool.and_false] at hcr
  exact ⟨t, ht, ⟨fun h => absurd h hu, fun _ => ⟨hrt, hcr⟩⟩, fun h => absurd h hd, fun _ => hov, hca, hframe⟩

end Divisions

/-! ### Shift amounts and long shifts -/

theorem shift6_eq (b : Word) : shift6 b = b.toNat % 64 := by simp [shift6]

theorem shift7_eq (b : Word) : shift7 b = b.toNat % 128 := by simp [shift7]

theorem msb_signExtend_of_le {w : Nat} (v : BitVec w) (hw : w ≤ 64) : (v.signExtend 64).msb = v.msb := by
  rw [BitVec.msb_eq_getLsbD_last, BitVec.getLsbD_signExtend]
  by_cases h : 63 < w
  · obtain rfl : w = 64 := by omega
    simp [BitVec.msb_eq_getLsbD_last]
  · simp [h]

/-- A shift past the sign bit of the source leaves the sign in every bit (R462, R466). -/
theorem sshiftRight_signExtend_of_le {w : Nat} (v : BitVec w) (n : Nat) (hw : w ≤ 64) (hn : w ≤ n) :
    (v.signExtend 64).sshiftRight n = if v.msb then BitVec.allOnes 64 else 0#64 := by
  apply BitVec.eq_of_getLsbD_eq
  intro k hk
  have hhigh : ¬ n + k < w := by omega
  have hin : ¬ 64 ≤ k := by omega
  rw [BitVec.getLsbD_sshiftRight, BitVec.getLsbD_signExtend, msb_signExtend_of_le v hw, if_neg hhigh]
  cases v.msb
  · simp
  · rw [if_pos rfl, BitVec.getLsbD_allOnes]
    simp [hk, hin]

theorem sraw_result (a : Word) (n : Nat) :
    (if n < 32 then (sext (lowWord a)).sshiftRight n else if (lowWord a).msb then BitVec.allOnes 64 else 0#64)
      = (BitVec.signExtend 64 (a.extractLsb' 0 32)).sshiftRight n := by
  rw [sext_eq_signExtend _ (by omega) (by omega), lowWord_eq]
  split
  · rfl
  · rw [sshiftRight_signExtend_of_le _ n (by omega) (by omega)]

theorem srad_result (a : Word) (n : Nat) :
    (if n < 64 then a.sshiftRight n else if a.msb then BitVec.allOnes 64 else 0#64) = a.sshiftRight n := by
  split
  · rfl
  · have h := sshiftRight_signExtend_of_le a n (by omega) (by omega)
    rwa [BitVec.signExtend_eq, eq_comm] at h

/-! ### The instructions -/

section Instructions

variable {rt ra rb : Reg} {oe rc : Bool} {s : State} {a b : Word}

theorem divd_havoc (ha : s.readGpr ra = some a) (hb : s.readGpr rb = some b) :
    HavocDivides (.divd rt ra rb oe rc) rt oe rc (NoQuotient a b) (NoQuotient a b)
      (FullQuotientAfter rt rc (BitVec.ofInt 64 (a.toInt.tdiv b.toInt)) s) s := by
  by_cases h : NoQuotient a b
  · exact havocDivides_of_undefined ((withOperands_of_some ha hb).trans (if_pos h)) h h
  · exact havocDivides_of_full ((withOperands_of_some ha hb).trans (if_neg h)) h h

theorem divdu_havoc (ha : s.readGpr ra = some a) (hb : s.readGpr rb = some b) :
    HavocDivides (.divdu rt ra rb oe rc) rt oe rc (b = 0#64) (b = 0#64)
      (FullQuotientAfter rt rc (BitVec.ofNat 64 (a.toNat / b.toNat)) s) s := by
  by_cases h : b = 0#64
  · exact havocDivides_of_undefined ((withOperands_of_some ha hb).trans (if_pos h)) h h
  · exact havocDivides_of_full ((withOperands_of_some ha hb).trans (if_neg h)) h h

theorem divw_havoc (ha : s.readGpr ra = some a) (hb : s.readGpr rb = some b) :
    HavocDivides (.divw rt ra rb oe rc) rt oe rc (NoWordQuotient a b) True
      (WordQuotientAfter rt rc (BitVec.ofInt 32 ((signedLow a).tdiv (signedLow b)))
        ((afterOverflowDraws oe s.drawn).draw 3) s) s := by
  rw [NoWordQuotient, signedLow_eq, signedLow_eq]
  by_cases h : (lowWord b).toInt = 0 ∨ ((lowWord a).toInt = -(2 ^ 31) ∧ (lowWord b).toInt = -1)
  · exact havocDivides_of_undefined ((withOperands_of_some ha hb).trans (if_pos h)) h trivial
  · exact havocDivides_of_word ((withOperands_of_some ha hb).trans (if_neg h)) h

theorem divwu_havoc (ha : s.readGpr ra = some a) (hb : s.readGpr rb = some b) :
    HavocDivides (.divwu rt ra rb oe rc) rt oe rc (unsignedLow b = 0) True
      (WordQuotientAfter rt rc (BitVec.ofNat 32 (unsignedLow a / unsignedLow b))
        ((afterOverflowDraws oe s.drawn).draw 3) s) s := by
  rw [unsignedLow_eq, unsignedLow_eq]
  by_cases h : (lowWord b).toNat = 0
  · exact havocDivides_of_undefined ((withOperands_of_some ha hb).trans (if_pos h)) h trivial
  · exact havocDivides_of_word ((withOperands_of_some ha hb).trans (if_neg h)) h

theorem sraw_havoc (ha : s.readGpr ra = some a) (hb : s.readGpr rb = some b) :
    HavocWrites (.sraw ra rt rb rc) rt true false rc false
      ((BitVec.signExtend 64 (a.extractLsb' 0 32)).sshiftRight (b.toNat % 64)) s := by
  rw [← shift6_eq]
  exact havocWrites_of_finishAlgebraic (withOperands_of_some ha hb) (sraw_result a _)

theorem srad_havoc (ha : s.readGpr ra = some a) (hb : s.readGpr rb = some b) :
    HavocWrites (.srad ra rt rb rc) rt true false rc false (a.sshiftRight (b.toNat % 128)) s := by
  rw [← shift7_eq]
  exact havocWrites_of_finishAlgebraic (withOperands_of_some ha hb) (srad_result a _)

theorem srawi_havoc (ha : s.readGpr ra = some a) (sh : BitVec 5) :
    HavocWrites (.srawi ra rt sh rc) rt true false rc false
      ((BitVec.signExtend 64 (a.extractLsb' 0 32)).sshiftRight sh.toNat) s :=
  havocWrites_of_finishAlgebraic (withOperand_of_some ha)
    (by rw [sext_eq_signExtend _ (by omega) (by omega), lowWord_eq])

theorem mulld_havoc (ha : s.readGpr ra = some a) (hb : s.readGpr rb = some b) :
    HavocWrites (.mulld rt ra rb oe rc) rt false oe rc false (a * b) s :=
  havocWrites_of_finishResult (withOperands_of_some ha hb)
    (by rw [BitVec.ofInt_mul, BitVec.ofInt_toInt, BitVec.ofInt_toInt])

theorem mullw_havoc (ha : s.readGpr ra = some a) (hb : s.readGpr rb = some b) :
    HavocWrites (.mullw rt ra rb oe rc) rt false oe rc false (BitVec.ofInt 64 (signedLow a * signedLow b)) s := by
  rw [signedLow_eq, signedLow_eq]
  exact havocWrites_of_finishResult (withOperands_of_some ha hb) rfl

end Instructions

/-- Settles O41: each instruction's end under `havoc`, with its result brought to the form of the statement. -/
theorem havocDraws : Obligations.HavocDraws := by
  intro rt ra rb oe rc si s a b ha hb
  have one {k : Word → Result} : withOperand (s.readGpr ra) k = k a := withOperand_of_some ha
  have two {k : Word → Word → Result} :
      (withOperand (s.readGpr ra) fun x => withOperand (s.readGpr rb) (k x)) = k a b := withOperands_of_some ha hb
  rw [← sext16_eq]
  refine ⟨?addc, ?adde, ?addme, ?addze, ?subfc, ?subfe, ?subfme, ?subfze, ?addic, ?addicRc, ?subfic, ?add, ?subf, ?neg,
    mulld_havoc ha hb, mullw_havoc ha hb, divd_havoc ha hb, divdu_havoc ha hb, divw_havoc ha hb, divwu_havoc ha hb,
    srawi_havoc ha, ?sradi, sraw_havoc ha hb, srad_havoc ha hb⟩
  case addc => exact havocWrites_of_addCarrying true (fun _ => rfl) two (add_carry_false a b)
  case adde => exact havocWrites_of_addCarrying true (fun _ => rfl) two (add_carry_ca a b s)
  case addme => exact havocWrites_of_addCarrying true (fun _ => rfl) one (add_minusOne_ca a s)
  case addze => exact havocWrites_of_addCarrying true (fun _ => rfl) one (add_zero_ca a s)
  case subfc => exact havocWrites_of_addCarrying true (fun _ => rfl) two (not_add_add_one a b)
  case subfe => exact havocWrites_of_addCarrying true (fun _ => rfl) two (add_carry_ca (~~~a) b s)
  case subfme => exact havocWrites_of_addCarrying true (fun _ => rfl) one (add_minusOne_ca (~~~a) s)
  case subfze => exact havocWrites_of_addCarrying true (fun _ => rfl) one (add_zero_ca (~~~a) s)
  case addic => exact havocWrites_of_addCarrying false nofun one (add_carry_false a _)
  case addicRc => exact havocWrites_of_addCarrying true (fun _ => rfl) one (add_carry_false a _)
  case subfic => exact havocWrites_of_addCarrying false nofun one (not_add_add_one a _)
  case add => exact havocWrites_of_finishResult two (add_carry_false a b)
  case subf => exact havocWrites_of_finishResult two (not_add_add_one a b)
  case neg => exact havocWrites_of_finishResult one (not_add_zero_add_one a)
  case sradi => exact fun sh => havocWrites_of_finishAlgebraic one rfl

end Sys2Proof.Machine
end

section
/-! PROOFS. The compares (44_compare_logical.md R400 to R404). -/

namespace Sys2Proof.Machine

open Sys2Proof.Safety Sys2Proof.Config Sys2Proof.Claims

theorem signedOperand_eq (l : Bool) (v : Word) : signedOperand l v = if l then v.toInt else signedLow v := by
  rw [signedOperand, signedLow_eq]

theorem unsignedOperand_eq (l : Bool) (v : Word) :
    unsignedOperand l v = if l then (v.toNat : Int) else (unsignedLow v : Int) := by
  rw [unsignedOperand, unsignedLow_eq]

/-- A compare writes CRF[BF] and PC alone. -/
theorem comparesTo_of_compareResult {i : Instr} {bf : BitVec 3} {x y : Int} {s : State}
    (hi : exec i s = .next (s.compareResult bf (compareInt x y)).advance) : ComparesTo i bf x y s :=
  ⟨_, hi, compared_congr rfl rfl (writeCompare_compared s bf x y s.so), ⟨rfl, rfl, rfl⟩,
    frame_of (fun _ _ => rfl) rfl rfl rfl rfl rfl rfl rfl rfl⟩

theorem sext_toInt (si : BitVec 16) : (sext si).toInt = si.toInt := by
  rw [sext16_eq]
  exact BitVec.toInt_signExtend_of_le (by omega)

theorem zext_toNat (ui : BitVec 16) : (zext ui).toNat = ui.toNat := by
  rw [zext, BitVec.toNat_setWidth]
  exact Nat.mod_eq_of_lt (by omega)

/-- Settles O44: each operand is the one of R400, and the rest is the comparison-flag write. -/
theorem compares : Obligations.Compares := by
  intro bf l ra rb imm s a b ha
  simp only [← signedOperand_eq, ← unsignedOperand_eq, ← sext_toInt, ← zext_toNat]
  exact ⟨fun hb => ⟨comparesTo_of_compareResult (withOperands_of_some ha hb),
      comparesTo_of_compareResult (withOperands_of_some ha hb)⟩,
    comparesTo_of_compareResult (withOperand_of_some ha), comparesTo_of_compareResult (withOperand_of_some ha)⟩

end Sys2Proof.Machine
end

section
/-! PROOFS. Why a decode fails, read off the dispatch tables (30_encoding.md R122 to R130). -/

namespace Sys2Proof

open Claims

/-- The cause of a failed decode. -/
def Verdict.cause : Verdict → Option DecodeFailure
  | .success _ => none
  | .failure c => some c

theorem Verdict.eq_failure_iff (v : Verdict) (c : DecodeFailure) : v = .failure c ↔ v.cause = some c := by
  cases v <;> simp [Verdict.cause]

/-- The cause that the validity check of R130 gives. -/
def invalidUnless (valid : Bool) : Option DecodeFailure := if valid then none else some .invalidUpdateForm

theorem checked_cause (i : Instr) : (checked i).cause = invalidUnless i.updateFormValid := by
  unfold checked invalidUnless
  split <;> rfl

/-! ### Entries -/

/-- An entry gives the cause `o` for the word, whichever of its variants the word selects. -/
def Entry.Gives (w : InsnWord) : Entry → Option DecodeFailure → Prop
  | .reserved cause, o => some cause = o
  | .passthrough, o => none = o
  | .fixed mk, o => invalidUnless (mk w).updateFormValid = o
  | .variant _ first fallback, o =>
    invalidUnless (first w).updateFormValid = o ∧ invalidUnless (fallback w).updateFormValid = o
  | .group _, o => some .reservedSecondary = o

theorem Entry.Gives.emit_cause {w : InsnWord} {e : Entry} {o : Option DecodeFailure} (h : e.Gives w o) :
    (e.emit w).cause = o := by
  cases e with
  | reserved | passthrough | group => exact h
  | fixed mk => exact (checked_cause _).trans h
  | variant cond first fallback =>
    refine (checked_cause _).trans ?_
    split
    · exact h.1
    · exact h.2

/-- What holds of every entry of a table at its key, and of the default at a key without one, holds of a lookup. -/
theorem find_getD_of_forall {P : Entry → Nat → Prop} {table : List (Nat × Entry)} {k : Nat}
    (ht : ∀ p ∈ table, P p.2 p.1) (hd : Entry.find table k = none → P .passthrough k) :
    P ((Entry.find table k).getD .passthrough) k := by
  induction table with
  | nil => exact hd rfl
  | cons p rest ih =>
    rw [List.forall_mem_cons] at ht
    unfold Entry.find at hd ⊢
    split
    · rename_i hk
      exact hk ▸ ht.1
    · exact ih ht.2 (by simpa [*] using hd)

/-! ### What the keys of each table give -/

/-- The cause of an update-form load (R130). -/
def loadUpdateCause (w : InsnWord) : Option DecodeFailure := invalidUnless (fieldRA w != 0#5 && fieldRA w != fieldRT w)

/-- The cause of an update-form store (R130). -/
def storeUpdateCause (w : InsnWord) : Option DecodeFailure := invalidUnless (fieldRA w != 0#5)

/-- Group 30 (R124). -/
def cause30 : Nat → Option DecodeFailure
  | 10 | 11 | 12 | 13 | 14 | 15 => some .reservedSecondary
  | _ => none

/-- Group 31 (R125, R126). -/
def cause31 (w : InsnWord) : Nat → Option DecodeFailure
  | 53 | 55 | 119 | 311 | 373 | 375 => loadUpdateCause w
  | 181 | 183 | 247 | 439 => storeUpdateCause w
  | _ => none

/-- Group 58 (R127). -/
def cause58 (w : InsnWord) : Nat → Option DecodeFailure
  | 1 => loadUpdateCause w
  | 3 => some .reservedSecondary
  | _ => none

/-- Group 62 (R128). -/
def cause62 (w : InsnWord) : Nat → Option DecodeFailure
  | 1 => storeUpdateCause w
  | 3 => some .reservedSecondary
  | _ => none

/-- The cause that a word of a nested group has. -/
def groupCause (w : InsnWord) : Group → Option DecodeFailure
  | .g19 => none
  | .g30 => cause30 (fieldXO4 w).toNat
  | .g31 => cause31 w (fieldXO10 w).toNat
  | .g58 => cause58 w (fieldXO2 w).toNat
  | .g62 => cause62 w (fieldXO2 w).toNat

/-- The cause that a word of a primary opcode has (R122). -/
def opcodeCause (w : InsnWord) : Nat → Option DecodeFailure
  | 0 | 1 | 5 | 6 | 9 | 22 => some .reservedPrimary
  | 33 | 35 | 41 | 43 => loadUpdateCause w
  | 37 | 39 | 45 => storeUpdateCause w
  | 19 => groupCause w .g19
  | 30 => groupCause w .g30
  | 31 => groupCause w .g31
  | 58 => groupCause w .g58
  | 62 => groupCause w .g62
  | _ => none

/-! ### The tables -/

section Tables

variable (w : InsnWord)

theorem branchI_valid : (branchI w).updateFormValid = true := by
  unfold branchI
  split <;> rfl

theorem condBranchB_valid : (condBranchB w).updateFormValid = true := by
  unfold condBranchB
  split <;> rfl

theorem branchLR_valid : (branchLR w).updateFormValid = true := by
  unfold branchLR
  split <;> rfl

theorem branchCTR_valid : (branchCTR w).updateFormValid = true := by
  unfold branchCTR
  split <;> rfl

theorem table19_gives : ∀ p ∈ table19, p.2.Gives w none := by
  simp only [table19, List.forall_mem_cons, List.not_mem_nil, IsEmpty.forall_iff, implies_true, and_true, Entry.Gives,
    branchLR_valid, branchCTR_valid]
  and_intros <;> rfl

theorem table30_gives : ∀ p ∈ table30, p.2.Gives w (cause30 p.1) := by
  simp only [table30, List.forall_mem_cons, List.not_mem_nil, IsEmpty.forall_iff, implies_true, and_true, Entry.Gives]
  and_intros <;> rfl

theorem table31_gives : ∀ p ∈ table31, p.2.Gives w (cause31 w p.1) := by
  simp only [table31, table31a, table31b, table31c, List.forall_mem_append, List.forall_mem_cons, List.not_mem_nil,
    IsEmpty.forall_iff, implies_true, and_true, Entry.Gives]
  and_intros <;> rfl

theorem table31XO_gives : ∀ p ∈ table31XO, p.2.Gives w none := by
  simp only [table31XO, List.forall_mem_cons, List.not_mem_nil, IsEmpty.forall_iff, implies_true, and_true, Entry.Gives]
  and_intros <;> rfl

theorem table58_gives : ∀ p ∈ table58, p.2.Gives w (cause58 w p.1) := by
  simp only [table58, List.forall_mem_cons, List.not_mem_nil, IsEmpty.forall_iff, implies_true, and_true, Entry.Gives]
  and_intros <;> rfl

theorem table62_gives : ∀ p ∈ table62, p.2.Gives w (cause62 w p.1) := by
  simp only [table62, List.forall_mem_cons, List.not_mem_nil, IsEmpty.forall_iff, implies_true, and_true, Entry.Gives]
  and_intros <;> rfl

/-! ### A word -/

/-- The keys with a cause are in their tables, so that the default gives none. -/
theorem cause30_default {k : Nat} (h : Entry.find table30 k = none) : cause30 k = none := by
  unfold cause30
  split <;> first | rfl | cases h

theorem cause31_default {k : Nat} (h : Entry.find table31 k = none) : cause31 w k = none := by
  unfold cause31
  split <;> first | rfl | cases h

theorem cause58_default {k : Nat} (h : Entry.find table58 k = none) : cause58 w k = none := by
  unfold cause58
  split <;> first | rfl | cases h

theorem cause62_default {k : Nat} (h : Entry.find table62 k = none) : cause62 w k = none := by
  unfold cause62
  split <;> first | rfl | cases h

/-- Group 31 looks in its second table where the first has no entry (R126). -/
theorem group31_gives : (groupEntry .g31 w).Gives w (groupCause w .g31) := by
  have hfirst := find_getD_of_forall (P := fun e k => e.Gives w (cause31 w k)) (k := (fieldXO10 w).toNat)
    (table31_gives w) fun h => (cause31_default w h).symm
  have hsecond := find_getD_of_forall (P := fun e _ => e.Gives w none) (k := (fieldXO9 w).toNat)
    (table31XO_gives w) fun _ => rfl
  unfold groupEntry groupCause
  cases h : Entry.find table31 (fieldXO10 w).toNat with
  | some e => simpa [h] using hfirst
  | none => simpa [cause31_default w h] using hsecond

theorem groupEntry_gives (g : Group) : (groupEntry g w).Gives w (groupCause w g) := by
  cases g with
  | g19 => exact find_getD_of_forall (P := fun e _ => e.Gives w none) (table19_gives w) fun _ => rfl
  | g30 =>
    exact find_getD_of_forall (P := fun e k => e.Gives w (cause30 k)) (table30_gives w)
      fun h => (cause30_default h).symm
  | g31 => exact group31_gives w
  | g58 =>
    exact find_getD_of_forall (P := fun e k => e.Gives w (cause58 w k)) (table58_gives w)
      fun h => (cause58_default w h).symm
  | g62 =>
    exact find_getD_of_forall (P := fun e k => e.Gives w (cause62 w k)) (table62_gives w)
      fun h => (cause62_default w h).symm

/-- The entry that a top-level entry leads the word to (R120). -/
def Entry.resolve : Entry → Entry
  | .group g => groupEntry g w
  | e => e

/-- The groups give what their own tables give, every other entry what its primary opcode does. -/
theorem topTable_gives : ∀ p ∈ topTable, (p.2.resolve w).Gives w (opcodeCause w p.1) := by
  simp only [topTable, topTableLow, topTableHigh, List.forall_mem_append, List.forall_mem_cons, List.not_mem_nil,
    IsEmpty.forall_iff, implies_true, and_true, Entry.resolve]
  and_intros
  all_goals try exact groupEntry_gives w _
  all_goals
    simp only [Entry.Gives, branchI_valid, condBranchB_valid]
    rfl

/-- Every primary opcode has an entry (R122). -/
theorem opcodeCause_default {k : Nat} (hk : k < 64) (h : Entry.find topTable k = none) : none = opcodeCause w k := by
  interval_cases k <;> cases h

/-- A failed decode has the cause of its primary opcode, and no other word fails. -/
theorem decode_cause : (decode w).cause = opcodeCause w (fieldOPCD w).toNat := by
  have h := find_getD_of_forall (P := fun e k => (e.resolve w).Gives w (opcodeCause w k)) (k := (fieldOPCD w).toNat)
    (topTable_gives w) (opcodeCause_default w (fieldOPCD w).isLt)
  exact Entry.Gives.emit_cause h

end Tables

/-! ### The causes as the spec's conditions on the word -/

theorem invalidUnless_eq_some (valid : Bool) (c : DecodeFailure) :
    invalidUnless valid = some c ↔ c = .invalidUpdateForm ∧ valid = false := by
  cases valid <;> simp [invalidUnless, eq_comm (a := c)]

theorem loadUpdateCause_eq_some (w : InsnWord) (c : DecodeFailure) :
    loadUpdateCause w = some c ↔ c = .invalidUpdateForm ∧ BadLoadUpdate w := by
  rw [loadUpdateCause, invalidUnless_eq_some, Bool.and_eq_false_iff, bne_eq_false_iff_eq, bne_eq_false_iff_eq]
  rfl

theorem storeUpdateCause_eq_some (w : InsnWord) (c : DecodeFailure) :
    storeUpdateCause w = some c ↔ c = .invalidUpdateForm ∧ BadStoreUpdate w := by
  rw [storeUpdateCause, invalidUnless_eq_some, bne_eq_false_iff_eq]
  rfl

theorem cause30_eq_some {k : Nat} (hk : k < 16) (c : DecodeFailure) :
    cause30 k = some c ↔ c = .reservedSecondary ∧ 10 ≤ k := by
  interval_cases k <;> simp [cause30, eq_comm (a := c)]

theorem cause31_eq_some (w : InsnWord) (k : Nat) (c : DecodeFailure) :
    cause31 w k = some c ↔ c = .invalidUpdateForm ∧ (k ∈ [53, 55, 119, 311, 373, 375] ∧ BadLoadUpdate w
      ∨ k ∈ [181, 183, 247, 439] ∧ BadStoreUpdate w) := by
  unfold cause31
  split <;> simp_all [loadUpdateCause_eq_some, storeUpdateCause_eq_some]

theorem cause58_eq_some (w : InsnWord) (k : Nat) (c : DecodeFailure) :
    cause58 w k = some c ↔ c = .invalidUpdateForm ∧ k = 1 ∧ BadLoadUpdate w ∨ c = .reservedSecondary ∧ k = 3 := by
  unfold cause58
  split <;> simp_all [loadUpdateCause_eq_some, eq_comm (a := c)]

theorem cause62_eq_some (w : InsnWord) (k : Nat) (c : DecodeFailure) :
    cause62 w k = some c ↔ c = .invalidUpdateForm ∧ k = 1 ∧ BadStoreUpdate w ∨ c = .reservedSecondary ∧ k = 3 := by
  unfold cause62
  split <;> simp_all [storeUpdateCause_eq_some, eq_comm (a := c)]

theorem opcodeCause_eq_some (w : InsnWord) (k : Nat) (c : DecodeFailure) :
    opcodeCause w k = some c ↔ c = .reservedPrimary ∧ k ∈ [0, 1, 5, 6, 9, 22]
      ∨ c = .invalidUpdateForm ∧ (k ∈ [33, 35, 41, 43] ∧ BadLoadUpdate w ∨ k ∈ [37, 39, 45] ∧ BadStoreUpdate w)
      ∨ k = 30 ∧ cause30 (fieldXO4 w).toNat = some c ∨ k = 31 ∧ cause31 w (fieldXO10 w).toNat = some c
      ∨ k = 58 ∧ cause58 w (fieldXO2 w).toNat = some c ∨ k = 62 ∧ cause62 w (fieldXO2 w).toNat = some c := by
  unfold opcodeCause
  split <;> simp_all [groupCause, loadUpdateCause_eq_some, storeUpdateCause_eq_some, eq_comm (a := c)]

/-- The causes of a failed decode, by the primary opcode and the keys of the groups. -/
theorem decode_eq_failure (w : InsnWord) (c : DecodeFailure) :
    decode w = .failure c ↔ opcodeCause w (w.extractLsb' 26 6).toNat = some c := by
  rw [Verdict.eq_failure_iff, decode_cause]
  rfl

/-- Settles O3: each cause, through the tables that can give it. -/
theorem decodeFailsForThreeCauses : Obligations.DecodeFailsForThreeCauses := by
  intro w
  have h30 := cause30_eq_some (fieldXO4 w).isLt
  simp only [decode_eq_failure, opcodeCause_eq_some, h30, cause31_eq_some, cause58_eq_some, cause62_eq_some,
    reduceCtorEq, false_and, and_false, false_or, or_false, true_and]
  refine ⟨Iff.rfl, ?secondary, ?invalid⟩
  case secondary =>
    simp only [ReservedSecondary, ← BitVec.toNat_inj]
    rfl
  case invalid =>
    simp only [InvalidUpdate, ← BitVec.toNat_inj, BitVec.toNat_ofNat, Nat.reducePow, Nat.reduceMod, fieldXO10, fieldXO2]
    tauto

end Sys2Proof
end

section
/-! PROOFS. Memory byte by byte: a value and its list of bytes, and what a completed store or load does with one
(20_memory.md R72 to R74, R78; 42_load_store.md R281 to R283). -/

namespace Sys2Proof.Machine

open Sys2Proof.Safety

/-! ### A value and its bytes -/

/-- The bytes of the value of a list of bytes are the list. -/
theorem bytesBE_ofNat_beValue {n : Nat} {bs : List Byte} (h : bs.length = n) :
    bytesBE n (BitVec.ofNat (8 * n) (beValue bs)) = bs := by
  apply List.ext_getElem (by simp [h])
  intro k h1 h2
  rw [bytesBE_getElem, ofNat_beValue_byte n bs h k (h ▸ h2)]

theorem bytesBE_memRead (m : Memory) (ea : Word) (n : Nat) : bytesBE n (memRead m ea n) = readBytes m ea n :=
  bytesBE_ofNat_beValue (readBytes_length m ea n)

theorem bytesBE_byteRev (n : Nat) (v : BitVec (8 * n)) : bytesBE n (byteRev n v) = (bytesBE n v).reverse :=
  bytesBE_ofNat_beValue (by simp)

/-- The bytes of a register's low 8n bits are those the claims about stores list. -/
theorem bytesBE_setWidth {n : Nat} (v : Word) : bytesBE n (v.setWidth (8 * n)) = storeBytes n v := by
  apply List.map_congr_left
  intro k hk
  have hk := List.mem_range.1 hk
  have hlow : 8 * (n - k) - 8 = 8 * (n - 1 - k) := by omega
  rw [hlow]
  apply BitVec.eq_of_getLsbD_eq
  intro j hj
  have hin : 8 * (n - 1 - k) + j < 8 * n := by omega
  simp [hj, hin]

/-- The n bytes in memory, each by its own address. -/
theorem readBytes_eq_map (m : Memory) (ea : Word) (n : Nat) :
    readBytes m ea n = (List.range n).map fun k => m.read (ea + BitVec.ofNat 64 k).toNat := by
  apply List.ext_getElem (by simp)
  intro k h1 h2
  simp [readBytes_getElem]

/-- Memory holds a value at an address when the bytes there are the value's. -/
theorem bytesAt_of_readBytes {m : Memory} {ea : Word} {n : Nat} {v : BitVec (8 * n)}
    (h : readBytes m ea n = bytesBE n v) : BytesAt m ea n v := by
  intro k hk
  have hread := readBytes_getElem m ea n k (by simpa using hk)
  simp only [h, bytesBE_getElem] at hread
  exact hread.symm

/-- A byte after a list of bytes was written: one of the list, or the one memory held. -/
theorem read_writeBytes (m : Memory) (ea : Word) (bs : List Byte) (x : Word) (hl : bs.length ≤ 2 ^ 64) :
    (writeBytes m ea bs).read x.toNat = byteAfter m ea bs x := by
  have hx : ea + BitVec.ofNat 64 (x - ea).toNat = x := by
    rw [BitVec.ofNat_toNat, BitVec.setWidth_eq, BitVec.add_comm, BitVec.sub_add_cancel]
  unfold byteAfter
  by_cases hk : (x - ea).toNat < bs.length
  · have hat := read_writeBytes_at m ea bs _ hk hl
    rw [hx] at hat
    rw [hat, List.getElem?_eq_getElem hk, Option.getD_some]
  · rw [read_writeBytes_other, List.getElem?_eq_none (by omega), Option.getD_none]
    rintro k hlt hxk
    have hk' := addr_inj ea (x - ea).toNat k (BitVec.isLt _) (by omega) (by rwa [hx])
    omega

/-- The bytes read back at the address of a write are the bytes written. -/
theorem readBytes_writeBytes (m : Memory) (ea : Word) (bs : List Byte) (hl : bs.length ≤ 2 ^ 64) :
    readBytes (writeBytes m ea bs) ea bs.length = bs := by
  apply List.ext_getElem (by simp)
  intro k h1 h2
  rw [readBytes_getElem, read_writeBytes_at m ea bs k h2 hl]

theorem memRead_bytesAt (m : Memory) (ea : Word) (n : Nat) : BytesAt m ea n (memRead m ea n) :=
  bytesAt_of_readBytes (bytesBE_memRead m ea n).symm

theorem memWrite_bytesAt (m : Memory) (ea : Word) {n : Nat} (v : BitVec (8 * n)) (hn : n ≤ 8) :
    BytesAt (memWrite m ea n v) ea n v := by
  have h := readBytes_writeBytes m ea (bytesBE n v) (by rw [bytesBE_length]; omega)
  rw [bytesBE_length] at h
  exact bytesAt_of_readBytes h

theorem memWrite_read_other (m : Memory) (ea : Word) {n a : Nat} (v : BitVec (8 * n)) (ha : ¬ InBytes ea n a) :
    (memWrite m ea n v).read a = m.read a :=
  read_writeBytes_other m ea _ a fun k hk hak => ha ⟨k, by simpa using hk, hak⟩

/-- Byte k of the reversal, from the least significant, is byte k of the value from the most significant. -/
theorem byteRev_byte {n : Nat} (v : BitVec (8 * n)) {k : Nat} (hk : k < n) :
    (byteRev n v).extractLsb' (8 * k) 8 = v.extractLsb' (8 * (n - 1 - k)) 8 := by
  have hbyte := ofNat_beValue_byte n (bytesBE n v).reverse (by simp) (n - 1 - k) (by omega)
  have hfrom : 8 * (n - (n - 1 - k)) - 8 = 8 * k := by omega
  have hto : 8 * (n - (n - 1 - (n - 1 - k))) - 8 = 8 * (n - 1 - k) := by omega
  rwa [List.getElem_reverse, bytesBE_getElem, bytesBE_length, hfrom, hto] at hbyte

/-! ### What a store puts in memory -/

/-- The address and the bytes of a store of n bytes, reversed or not. -/
def storeAccessOf (reversed : Bool) (n : Nat) (ea : Option Word) (rs : Reg) (s : State) :
    Option (Word × List Byte) :=
  match reversed with
  | false => storeOf n ea rs s
  | true => storeReversedOf n ea rs s

/-- The bytes that the claims list for a store are those of the value it writes. -/
theorem storeAccessOf_some {reversed : Bool} {n : Nat} {a : Word} {rs : Reg} {s : State} {v : Word}
    (hv : s.readGpr rs = some v) :
    storeAccessOf reversed n (some a) rs s = some (a, bytesBE n (storeValue reversed n v)) := by
  cases reversed <;>
    simp [storeAccessOf, storeReversedOf, storeOf, hv, storeValue, bytesBE_byteRev, bytesBE_setWidth]

section Store

variable {n : Nat} {ea : Option Word} {rs ra : Reg} {s t : State} {a : Word} {bs : List Byte}

/-- The memory `t` leaves is that of `s` with the bytes `bs`, at most a doubleword of them, put at `a` upwards. -/
def PutsBytes (a : Word) (bs : List Byte) (s t : State) : Prop := t.mem = writeBytes s.mem a bs ∧ bs.length ≤ 8

theorem store_putsBytes {reversed : Bool} (hn : n ≤ 8) (h : store reversed n ea rs s = .next t)
    (ha : storeAccessOf reversed n ea rs s = some (a, bs)) : PutsBytes a bs s t := by
  obtain ⟨b, v, rfl, hv, rfl⟩ := store_next h
  rw [storeAccessOf_some hv] at ha
  cases ha
  exact ⟨rfl, by simpa using hn⟩

theorem storeUpdate_putsBytes (hn : n ≤ 8) (h : storeUpdate n ea rs ra s = .next t)
    (ha : storeAccessOf false n ea rs s = some (a, bs)) : PutsBytes a bs s t := by
  obtain ⟨b, v, rfl, hv, rfl⟩ := storeUpdate_next h
  rw [storeAccessOf_some hv] at ha
  cases ha
  exact ⟨rfl, by simpa using hn⟩

/-- Every store that completes puts its bytes at its address. -/
theorem exec_putsBytes {i : Instr} (h : exec i s = .next t) (ha : storeAccess s i = some (a, bs)) :
    PutsBytes a bs s t := by
  cases i with
  | stb | stbx | sth | sthx | stw | stwx | std | stdx =>
    exact store_putsBytes (reversed := false) (by decide) h ha
  | sthbrx | stwbrx => exact store_putsBytes (reversed := true) (by decide) h ha
  | stbu | stbux | sthu | sthux | stwu | stwux | stdu | stdux => exact storeUpdate_putsBytes (by decide) h ha
  | _ => cases ha

end Store

/-! ### What a load makes of memory -/

/-- The 64 bits a load makes of n bytes, lowest address first. -/
def bytesValue (mode : LoadMode) (n : Nat) (bs : List Byte) : Word :=
  match mode with
  | .zero => BitVec.ofNat 64 (beValue bs)
  | .algebraic => (BitVec.ofNat (8 * n) (beValue bs)).signExtend 64
  | .reversed => BitVec.ofNat 64 (beValue bs.reverse)

/-- The access of a load of n bytes in each mode. -/
def loadAccessOf (mode : LoadMode) (n : Nat) (ea : Option Word) (rt : Reg) : Option LoadAccess :=
  match mode with
  | .zero => loadZero n ea rt
  | .algebraic => loadSigned n ea rt
  | .reversed => loadReversed n ea rt

theorem loadAccessOf_some (mode : LoadMode) (n : Nat) (a : Word) (rt : Reg) :
    loadAccessOf mode n (some a) rt = some ⟨a, n, rt, bytesValue mode n⟩ := by
  cases mode <;> rfl

/-- A width of as many bytes as are listed loses none of them. -/
theorem zext_ofNat_beValue {n : Nat} {bs : List Byte} (h : bs.length = n) :
    zext (BitVec.ofNat (8 * n) (beValue bs)) = BitVec.ofNat 64 (beValue bs) := by
  have hlt : beValue bs < 2 ^ (8 * n) := by
    calc beValue bs < 256 ^ bs.length := beValue_lt bs
      _ = 2 ^ (8 * n) := by rw [h, Nat.pow_mul]
  apply BitVec.eq_of_toNat_eq
  rw [zext, BitVec.toNat_setWidth, BitVec.toNat_ofNat, BitVec.toNat_ofNat, Nat.mod_eq_of_lt hlt]

/-- The value a load writes, from the bytes it reads. -/
theorem loadValue_eq {mode : LoadMode} {n : Nat} (m : Memory) (a : Word) (hpos : 0 < n) (hn : n ≤ 8) :
    loadValue mode n m a = bytesValue mode n (readBytes m a n) := by
  cases mode with
  | zero => exact zext_ofNat_beValue (readBytes_length m a n)
  | algebraic => exact sext_eq_signExtend _ (by omega) (by omega)
  | reversed =>
    simp only [loadValue, bytesValue, byteRev, bytesBE_memRead]
    exact zext_ofNat_beValue (by simp)

/-- An update-form load that decodes has RA other than RT (30_encoding.md R130). -/
theorem ne_of_loadUpdate_wellFormed {ra rt : Reg} (h : ((ra != 0#5 && ra != rt) && true) = true) : rt ≠ ra := by
  simp only [Bool.and_true, Bool.and_eq_true, bne_iff_ne] at h
  exact h.2.symm

section Load

variable {mode : LoadMode} {n : Nat} {ea : Option Word} {rt ra : Reg} {t u : State} {l : LoadAccess}

/-- RT holds what the load makes of the bytes in the memory before it. -/
def ReadsBytes (l : LoadAccess) (t u : State) : Prop :=
  u.readGpr l.rt = some (l.value (readBytes t.mem l.ea l.size))

theorem load_readsBytes (hpos : 0 < n) (hn : n ≤ 8) (h : load mode n ea rt t = .next u)
    (hl : loadAccessOf mode n ea rt = some l) : ReadsBytes l t u := by
  obtain ⟨a, rfl, rfl⟩ := load_next h
  rw [loadAccessOf_some] at hl
  cases hl
  simp [ReadsBytes, loadValue_eq t.mem a hpos hn]

/-- The address written to RA does not overwrite RT. -/
theorem loadUpdate_readsBytes (hpos : 0 < n) (hn : n ≤ 8) (hne : rt ≠ ra)
    (h : loadUpdate mode n ea rt ra t = .next u) (hl : loadAccessOf mode n ea rt = some l) : ReadsBytes l t u := by
  obtain ⟨a, rfl, rfl⟩ := loadUpdate_next h
  rw [loadAccessOf_some] at hl
  cases hl
  simp [ReadsBytes, State.setGpr_readGpr_ne _ ra rt a hne, loadValue_eq t.mem a hpos hn]

/-- Every load that decodes and completes makes RT of the bytes at its address. -/
theorem exec_readsBytes {j : Instr} (hj : j.wellFormed = true) (h : exec j t = .next u)
    (hl : loadAccess t j = some l) : ReadsBytes l t u := by
  cases j with
  | lbz | lbzx | lhz | lhzx | lha | lhax | lwz | lwzx | lwa | lwax | ld | ldx | lhbrx | lwbrx =>
    exact load_readsBytes (by decide) (by decide) h hl
  | lbzu | lbzux | lhzu | lhzux | lhau | lhaux | lwzu | lwzux | lwaux | ldu | ldux =>
    exact loadUpdate_readsBytes (by decide) (by decide) (ne_of_loadUpdate_wellFormed hj) h hl
  | _ => cases hl

end Load

end Sys2Proof.Machine
end

section
/-! PROOFS. What instructions that are no stores leave of memory, what the fetch sees of a store, and the statements
about memory (20_memory.md R70 to R87). -/

namespace Sys2Proof.Machine

open Sys2Proof.Safety

/-- An instruction that is no store leaves memory and the written-bytes set as they were. -/
theorem ExecEnd.memKept {i : Instr} {s t : State} (h : ExecEnd i s t) (hi : isStore i = false) : MemKept s t := by
  cases h with
  | stored _ _ _ hs | storedUpdate _ _ _ _ _ hs => simp [hs] at hi
  | _ => simp [MemKept]

/-- A fetch that passes the earlier checks and meets a marked byte stops the step (60_exceptions.md R602). -/
theorem step_modifiedCodeFetch {u : State} (hexit : u.pc ≠ u.exit) (halign : u.pc.toNat % 4 = 0)
    (hadm : u.admits u.pc 4 .fetch = true) (hmark : ∃ k, k < 4 ∧ (u.pc + BitVec.ofNat 64 k).toNat ∈ u.written) :
    step u = .fault (.modifiedCodeFetch u.pc) := by
  have hstop : u.fetchStop = some (.modifiedCodeFetch u.pc) := by
    simp [State.fetchStop, hexit, (aligned_iff u.pc 4).2 halign, hadm, (anyWritten_iff u.written u.pc 4).2 hmark]
  simp [step, hstop]

/-- Settles O20: the only ends of an instruction that write memory are a store's. -/
theorem onlyStoresChangeMemory : Obligations.OnlyStoresChangeMemory :=
  fun _ _ _ hi h => (exec_next h).memKept hi

/-- Settles O23: reads and writes go byte by byte, and the value of a list of bytes has those bytes. -/
theorem memoryIsBigEndian : Obligations.MemoryIsBigEndian := by
  intro m ea n hn
  have hle : n ≤ 8 := by
    simp only [List.mem_cons, List.not_mem_nil, or_false] at hn
    omega
  exact ⟨fun v => ⟨memWrite_bytesAt m ea v hle, fun a => memWrite_read_other m ea v⟩, memRead_bytesAt m ea n,
    fun v k => byteRev_byte v⟩

/-- Settles O24: the load reads each byte of a memory that is the old one with the store's bytes put in. -/
theorem loadAfterStore : Obligations.LoadAfterStore := by
  intro i j s t u ea bs l hstore hi hj hload hu
  obtain ⟨hmem, hlen⟩ := exec_putsBytes hi hstore
  have hbytes : readBytes t.mem l.ea l.size
      = (List.range l.size).map fun k => byteAfter s.mem ea bs (l.ea + BitVec.ofNat 64 k) := by
    rw [readBytes_eq_map, hmem]
    exact List.map_congr_left fun k _ => read_writeBytes s.mem ea bs _ (by omega)
  rw [← hbytes]
  exact exec_readsBytes hj hu hload

/-- Settles O25: stw marks its four bytes, and the fetch meets one of the marks. -/
theorem fetchOfStoredByteFaults : Obligations.FetchOfStoredByteFaults := by
  intro rs ra d s t u ea j k hea hstw hkept hexit halign hadm hj hk hjk
  refine step_modifiedCodeFetch hexit halign hadm ⟨j, hj, hkept _ ?_⟩
  obtain ⟨a, v, ha, -, rfl⟩ := store_next hstw
  cases hea.symm.trans ha
  exact (mem_markWritten s.written ea 4 _).2 (.inr ⟨k, hk, by rw [hjk]⟩)

end Sys2Proof.Machine
end

section
/-! PROOFS. What the dispatch tables hold: a word decodes by the entry of its keys, which words are passthrough, and
that every entry emits well-formed instructions (30_encoding.md R120 to R132). -/

namespace Sys2Proof

/-! ### What an entry emits -/

section Entries

variable {w : InsnWord} {i : Instr} {first fallback mk : InsnWord → Instr} {cond : InsnWord → Bool}

theorem emit_fixed (hi : mk w = i) : (Entry.fixed mk).emit w = checked i := hi ▸ rfl

theorem emit_first (hc : cond w = true) (hi : first w = i) :
    (Entry.variant cond first fallback).emit w = checked i := by
  simp [Entry.emit, hc, hi]

theorem emit_fallback (hc : (!cond w) = true) (hi : fallback w = i) :
    (Entry.variant cond first fallback).emit w = checked i := by
  have hcond : cond w = false := by simpa using hc
  simp [Entry.emit, hcond, hi]

end Entries

/-! ### A word decodes by the entry of its keys -/

/-- The key by which a group looks in its first table (R123 to R128). -/
def groupKey (g : Group) (w : InsnWord) : Nat :=
  match g with
  | .g19 | .g31 => (fieldXO10 w).toNat
  | .g30 => (fieldXO4 w).toNat
  | .g58 | .g62 => (fieldXO2 w).toNat

/-- The first table of a group. -/
def groupTable : Group → List (Nat × Entry)
  | .g19 => table19
  | .g30 => table30
  | .g31 => table31
  | .g58 => table58
  | .g62 => table62

theorem groupEntry_of_find {g : Group} {w : InsnWord} {e : Entry}
    (he : Entry.find (groupTable g) (groupKey g w) = some e) : groupEntry g w = e := by
  unfold groupTable groupKey at he
  cases g <;> (unfold groupEntry; rw [he]; rfl)

section Lookups

variable {w : InsnWord} {e : Entry} {v : Verdict}

theorem decode_of_primary {op : BitVec 6} (hop : fieldOPCD w = op) (he : Entry.find topTable op.toNat = some e)
    (hv : (e.resolve w).emit w = v) : decode w = v := by
  have hentry : entryOf w = e.resolve w := by
    unfold entryOf
    rw [hop, he]
    rfl
  rw [decode, hentry, hv]

theorem decode_of_group {g : Group} {op : BitVec 6} {k : Nat} (hop : fieldOPCD w = op)
    (hg : Entry.find topTable op.toNat = some (.group g)) (hkey : groupKey g w = k)
    (he : Entry.find (groupTable g) k = some e) (hv : e.emit w = v) : decode w = v := by
  refine decode_of_primary hop hg ?_
  rw [Entry.resolve, groupEntry_of_find (hkey ▸ he), hv]

end Lookups

/-! ### Passthrough words (R131) -/

def Entry.isPassthrough : Entry → Bool
  | .passthrough => true
  | _ => false

/-- Whether a group leads the word to a passthrough entry. -/
def groupPassthrough (w : InsnWord) : Group → Bool
  | .g19 => !definedKeys19.contains (fieldXO10 w).toNat
  | .g31 => !definedKeys31.contains (fieldXO10 w).toNat && !definedKeys31XO.contains (fieldXO9 w).toNat
  | .g62 => (fieldXO2 w).toNat == 2
  | .g30 | .g58 => false

/-- Whether a primary opcode leads the word to a passthrough entry. -/
def opcodePassthrough (w : InsnWord) (k : Nat) : Bool :=
  passthroughPrimaries.contains k || (k == 19 && groupPassthrough w .g19) || (k == 31 && groupPassthrough w .g31)
    || (k == 62 && groupPassthrough w .g62)

theorem opcodePassthrough_fieldOPCD (w : InsnWord) :
    opcodePassthrough w (fieldOPCD w).toNat = isPassthroughWord w := by
  simp only [opcodePassthrough, groupPassthrough, ← Bool.and_assoc]
  rfl

theorem find_eq_none_iff {table : List (Nat × Entry)} {k : Nat} :
    Entry.find table k = none ↔ k ∉ table.map Prod.fst := by
  induction table with
  | nil => simp [Entry.find]
  | cons p rest ih =>
    unfold Entry.find
    split
    · rename_i hk
      simp [hk]
    · rename_i hk
      simp [ih, Ne.symm hk]

/-- The entry that a table holds for a key is one of the table's. -/
theorem mem_of_find {table : List (Nat × Entry)} {k : Nat} {e : Entry} (h : Entry.find table k = some e) :
    (k, e) ∈ table := by
  induction table with
  | nil => cases h
  | cons p rest ih =>
    unfold Entry.find at h
    split at h
    · rename_i hk
      cases h
      exact hk ▸ List.mem_cons_self
    · exact List.mem_cons_of_mem _ (ih h)

/-- Where a table holds no passthrough entry, only its default is one. -/
theorem find_getD_isPassthrough {table : List (Nat × Entry)} (ht : ∀ p ∈ table, p.2.isPassthrough = false)
    (k : Nat) : ((Entry.find table k).getD .passthrough).isPassthrough = !(table.map Prod.fst).contains k := by
  cases h : Entry.find table k with
  | none => simpa [Entry.isPassthrough] using find_eq_none_iff.1 h
  | some e =>
    have hmem := mem_of_find h
    have hkey : k ∈ table.map Prod.fst := List.mem_map_of_mem hmem
    simpa [ht _ hmem] using hkey

section Passthrough

variable (w : InsnWord)

theorem table19_not_passthrough : ∀ p ∈ table19, p.2.isPassthrough = false := by decide

theorem table31_not_passthrough : ∀ p ∈ table31, p.2.isPassthrough = false := by decide

theorem table31XO_not_passthrough : ∀ p ∈ table31XO, p.2.isPassthrough = false := by decide

/-- Groups 30, 58 and 62 have an entry for every key of their width (R124, R127, R128). -/
theorem find_groupTable_ne_none {g : Group} (hg : g = .g30 ∨ g = .g58 ∨ g = .g62) :
    Entry.find (groupTable g) (groupKey g w) ≠ none := by
  have h4 (k : BitVec 4) : k.toNat ∈ table30.map Prod.fst := by revert k; decide
  have h2 (k : BitVec 2) : k.toNat ∈ table58.map Prod.fst ∧ k.toNat ∈ table62.map Prod.fst := by revert k; decide
  rw [ne_eq, find_eq_none_iff, not_not]
  obtain rfl | rfl | rfl := hg
  · exact h4 _
  · exact (h2 _).1
  · exact (h2 _).2

theorem groupEntry_isPassthrough (g : Group) : (groupEntry g w).isPassthrough = groupPassthrough w g := by
  cases g with
  | g19 => exact find_getD_isPassthrough table19_not_passthrough _
  | g30 =>
    exact find_getD_of_forall (P := fun e _ => e.isPassthrough = false) (by decide)
      fun h => absurd h (find_groupTable_ne_none w (.inl rfl))
  | g31 =>
    have hsecond := find_getD_isPassthrough table31XO_not_passthrough (fieldXO9 w).toNat
    unfold groupEntry
    cases h : Entry.find table31 (fieldXO10 w).toNat with
    | some e =>
      have hmem := mem_of_find h
      have hkey : definedKeys31.contains (fieldXO10 w).toNat = true :=
        List.contains_iff_mem.2 (List.mem_map_of_mem (f := Prod.fst) hmem)
      rw [groupPassthrough, hkey]
      exact table31_not_passthrough _ hmem
    | none =>
      have hkey : definedKeys31.contains (fieldXO10 w).toNat = false :=
        Bool.eq_false_iff.2 fun hc => find_eq_none_iff.1 h (List.contains_iff_mem.1 hc)
      rw [groupPassthrough, hkey]
      exact hsecond
  | g58 =>
    exact find_getD_of_forall (P := fun e _ => e.isPassthrough = false) (by decide)
      fun h => absurd h (find_groupTable_ne_none w (.inr (.inl rfl)))
  | g62 =>
    exact find_getD_of_forall (P := fun e k => e.isPassthrough = (k == 2)) (by decide)
      fun h => absurd h (find_groupTable_ne_none w (.inr (.inr rfl)))

theorem topTable_isPassthrough : ∀ p ∈ topTable, (p.2.resolve w).isPassthrough = opcodePassthrough w p.1 := by
  simp only [topTable, topTableLow, topTableHigh, List.forall_mem_append, List.forall_mem_cons, List.not_mem_nil,
    IsEmpty.forall_iff, implies_true, and_true, Entry.resolve, groupEntry_isPassthrough]
  simp [opcodePassthrough, passthroughPrimaries, Entry.isPassthrough, groupPassthrough]

theorem entryOf_isPassthrough : (entryOf w).isPassthrough = isPassthroughWord w := by
  rw [← opcodePassthrough_fieldOPCD]
  refine find_getD_of_forall (P := fun e k => (e.resolve w).isPassthrough = opcodePassthrough w k)
    (topTable_isPassthrough w) fun h => ?_
  have hmem (k : BitVec 6) : k.toNat ∈ topTable.map Prod.fst := by revert k; decide
  exact absurd (hmem _) (find_eq_none_iff.1 h)

theorem entry_eq_of_isPassthrough {e : Entry} (h : e.isPassthrough = true) : e = .passthrough := by
  cases e with
  | passthrough => rfl
  | _ => cases h

theorem decode_of_isPassthroughWord (h : isPassthroughWord w = true) : decode w = .success (.passthrough w) := by
  rw [decode, entry_eq_of_isPassthrough ((entryOf_isPassthrough w).trans h)]
  rfl

end Passthrough

/-! ### What a word decodes to is well formed -/

/-! The first variants of R132 and the operands of the other. -/

@[simp] theorem variantValid_addi (rt ra : Reg) (si : BitVec 16) :
    (Instr.addi rt ra si).variantValid = !(ra == 0#5) := rfl

@[simp] theorem variantValid_addis (rt ra : Reg) (si : BitVec 16) :
    (Instr.addis rt ra si).variantValid = !(ra == 0#5) := rfl

@[simp] theorem variantValid_ori (rs ra : Reg) (ui : BitVec 16) :
    (Instr.ori rs ra ui).variantValid = !(rs == 0#5 && ra == 0#5 && ui == 0#16) := rfl

@[simp] theorem variantValid_or (rs ra rb : Reg) (rc : Bool) :
    (Instr.or rs ra rb rc).variantValid = !(rs == rb) := rfl

@[simp] theorem variantValid_mfocrf (rt : Reg) (fxm : BitVec 8) : (Instr.mfocrf rt fxm).variantValid = true := rfl

@[simp] theorem variantValid_mtocrf (rs : Reg) (fxm : BitVec 8) : (Instr.mtocrf rs fxm).variantValid = true := rfl

/-- The instructions of an entry meet the conditions of R132 for the word: the fallback where the word does not select
the first variant. -/
def Entry.EmitsVariant (w : InsnWord) : Entry → Prop
  | .fixed mk => (mk w).variantValid = true
  | .variant cond first fallback => (first w).variantValid = true ∧ (cond w || (fallback w).variantValid) = true
  | .reserved _ | .passthrough | .group _ => True

theorem checked_eq_success {i j : Instr} : checked i = .success j ↔ i.updateFormValid = true ∧ i = j := by
  unfold checked
  split <;> simp_all

theorem wellFormed_of_checked {i j : Instr} (hv : i.variantValid = true) (h : checked i = .success j) :
    j.wellFormed = true := by
  obtain ⟨hu, rfl⟩ := checked_eq_success.1 h
  rw [Instr.wellFormed, hu, hv]
  rfl

theorem Entry.EmitsVariant.wellFormed {w : InsnWord} {e : Entry} {i : Instr} (he : e.EmitsVariant w)
    (hp : e.isPassthrough = true → isPassthroughWord w = true) (h : e.emit w = .success i) : i.wellFormed = true := by
  cases e with
  | reserved | group => cases h
  | passthrough =>
    cases h
    exact hp rfl
  | fixed mk => exact wellFormed_of_checked he h
  | variant cond first fallback =>
    refine wellFormed_of_checked ?_ h
    obtain ⟨hfirst, hfallback⟩ := he
    cases hc : cond w with
    | true => exact hfirst
    | false => simpa [hc] using hfallback

section Variants

variable (w : InsnWord)

theorem branchI_variantValid : (branchI w).variantValid = true := by
  unfold branchI
  split <;> rfl

theorem condBranchB_variantValid : (condBranchB w).variantValid = true := by
  unfold condBranchB
  split <;> rfl

theorem branchLR_variantValid : (branchLR w).variantValid = true := by
  unfold branchLR
  split <;> rfl

theorem branchCTR_variantValid : (branchCTR w).variantValid = true := by
  unfold branchCTR
  split <;> rfl

theorem topTable_emitsVariant : ∀ p ∈ topTable, p.2.EmitsVariant w := by
  simp only [topTable, topTableLow, topTableHigh, List.forall_mem_append, List.forall_mem_cons, List.not_mem_nil,
    IsEmpty.forall_iff, implies_true, and_true, Entry.EmitsVariant, branchI_variantValid, condBranchB_variantValid,
    variantValid_addi, variantValid_addis, variantValid_ori, Bool.or_not_self, true_and]
  and_intros <;> rfl

theorem table19_emitsVariant : ∀ p ∈ table19, p.2.EmitsVariant w := by
  simp only [table19, List.forall_mem_cons, List.not_mem_nil, IsEmpty.forall_iff, implies_true, and_true,
    Entry.EmitsVariant, branchLR_variantValid, branchCTR_variantValid, true_and]
  and_intros <;> rfl

theorem table31_emitsVariant : ∀ p ∈ table31, p.2.EmitsVariant w := by
  simp only [table31, table31a, table31b, table31c, List.forall_mem_append, List.forall_mem_cons, List.not_mem_nil,
    IsEmpty.forall_iff, implies_true, and_true, Entry.EmitsVariant, variantValid_or, variantValid_mfocrf,
    variantValid_mtocrf, Bool.or_not_self, Bool.or_true]
  and_intros <;> rfl

theorem table31XO_emitsVariant : ∀ p ∈ table31XO, p.2.EmitsVariant w := by
  simp only [table31XO, List.forall_mem_cons, List.not_mem_nil, IsEmpty.forall_iff, implies_true, and_true,
    Entry.EmitsVariant]
  and_intros <;> rfl

theorem groupTable_emitsVariant (g : Group) : ∀ p ∈ groupTable g, p.2.EmitsVariant w := by
  cases g with
  | g19 => exact table19_emitsVariant w
  | g31 => exact table31_emitsVariant w
  | g30 | g58 | g62 =>
    simp only [groupTable, table30, table58, table62, List.forall_mem_cons, List.not_mem_nil, IsEmpty.forall_iff,
      implies_true, and_true, Entry.EmitsVariant]
    and_intros <;> rfl

theorem find_getD_emitsVariant {table : List (Nat × Entry)} (ht : ∀ p ∈ table, p.2.EmitsVariant w) (k : Nat) :
    ((Entry.find table k).getD .passthrough).EmitsVariant w :=
  find_getD_of_forall (P := fun e _ => e.EmitsVariant w) ht fun _ => trivial

theorem groupEntry_emitsVariant (g : Group) : (groupEntry g w).EmitsVariant w := by
  have hfirst := find_getD_emitsVariant w (groupTable_emitsVariant w g) (groupKey g w)
  cases g with
  | g31 =>
    unfold groupEntry
    cases h : Entry.find table31 (fieldXO10 w).toNat with
    | some e => exact groupTable_emitsVariant w .g31 _ (mem_of_find h)
    | none => exact find_getD_emitsVariant w (table31XO_emitsVariant w) _
  | _ => exact hfirst

theorem entryOf_emitsVariant : (entryOf w).EmitsVariant w := by
  have htop := find_getD_emitsVariant w (topTable_emitsVariant w) (fieldOPCD w).toNat
  unfold entryOf
  split
  · exact groupEntry_emitsVariant w _
  · exact htop

end Variants

/-- Settles O2: what the word's entry emits is well formed. -/
theorem decodedIsWellFormed : Obligations.DecodedIsWellFormed := fun w _ h =>
  (entryOf_emitsVariant w).wellFormed (entryOf_isPassthrough w).symm.trans h

/-- Settles O4: of the passthrough instructions only those of passthrough words are well formed. -/
theorem passthroughWords : Obligations.PassthroughWords := fun w =>
  ⟨fun h => decodedIsWellFormed w (.passthrough w) h, decode_of_isPassthroughWord w⟩

end Sys2Proof
end

section
/-! PROOFS. The words of each form, the round trip of encoder and decoder, and the bits that a form does not use
(30_encoding.md R104 to R134). -/

namespace Sys2Proof

/-! ### Fields that share a register field with unused bits -/

@[simp] theorem extract_compare_bf (bf : BitVec 3) (x : BitVec 1) (l : Bool) :
    (bf ++ x ++ BitVec.ofBool l).extractLsb' 2 3 = bf := by
  rw [extract_append_high _ _ (by decide), extract_append_high _ _ (by decide), BitVec.extractLsb'_eq_self]

@[simp] theorem getElem_compare_l (bf : BitVec 3) (x : BitVec 1) (l : Bool) : (bf ++ x ++ BitVec.ofBool l)[0] = l := by
  rw [← BitVec.getLsbD_eq_getElem, getLsbD_append_low _ _ (by decide), ofBool_getLsbD_zero]

@[simp] theorem extract_crField (bf : BitVec 3) (x : BitVec 2) : (bf ++ x).extractLsb' 2 3 = bf := by
  rw [extract_append_high _ _ (by decide), BitVec.extractLsb'_eq_self]

@[simp] theorem extract_lowPair (x : BitVec 3) (l : BitVec 2) : (x ++ l).extractLsb' 0 2 = l := by
  rw [extract_append_low _ _ (by decide), BitVec.extractLsb'_eq_self]

/-! ### The words of each form -/

section Forms

variable {rt ra rb : BitVec 5} {rc : Bool} {e : Entry} {v : Verdict}

theorem decode_formX19 {xo : BitVec 10} (he : Entry.find table19 xo.toNat = some e)
    (hv : e.emit (formX 19 rt ra rb xo rc) = v) : decode (formX 19 rt ra rb xo rc) = v :=
  decode_of_group (g := .g19) (fieldOPCD_formX ..) rfl (congrArg BitVec.toNat (fieldXO10_formX ..)) he hv

theorem decode_formX31 {xo : BitVec 10} (he : Entry.find table31 xo.toNat = some e)
    (hv : e.emit (formX 31 rt ra rb xo rc) = v) : decode (formX 31 rt ra rb xo rc) = v :=
  decode_of_group (g := .g31) (fieldOPCD_formX ..) rfl (congrArg BitVec.toNat (fieldXO10_formX ..)) he hv

theorem decode_formXFXCr {one : Bool} {fxm : BitVec 8} {xo : BitVec 10} (he : Entry.find table31 xo.toNat = some e)
    (hv : e.emit (formXFXCr 31 rt one fxm xo) = v) : decode (formXFXCr 31 rt one fxm xo) = v :=
  decode_of_group (g := .g31) (fieldOPCD_formXFXCr ..) rfl (congrArg BitVec.toNat (fieldXO10_formXFXCr ..)) he hv

theorem decode_formXFXSpr {spr xo : BitVec 10} (he : Entry.find table31 xo.toNat = some e)
    (hv : e.emit (formXFXSpr 31 rt spr xo) = v) : decode (formXFXSpr 31 rt spr xo) = v :=
  decode_of_group (g := .g31) (fieldOPCD_formXFXSpr ..) rfl (congrArg BitVec.toNat (fieldXO10_formXFXSpr ..)) he hv

theorem decode_formMDS {mbe : BitVec 6} {xo : BitVec 4} (he : Entry.find table30 xo.toNat = some e)
    (hv : e.emit (formMDS 30 rt ra rb mbe xo rc) = v) : decode (formMDS 30 rt ra rb mbe xo rc) = v :=
  decode_of_group (g := .g30) (fieldOPCD_formMDS ..) rfl (congrArg BitVec.toNat (fieldXO4_formMDS ..)) he hv

theorem decode_formDS58 {ds : BitVec 14} {xo : BitVec 2} (he : Entry.find table58 xo.toNat = some e)
    (hv : e.emit (formDS 58 rt ra ds xo) = v) : decode (formDS 58 rt ra ds xo) = v :=
  decode_of_group (g := .g58) (fieldOPCD_formDS ..) rfl (congrArg BitVec.toNat (fieldXO2_formDS ..)) he hv

theorem decode_formDS62 {ds : BitVec 14} {xo : BitVec 2} (he : Entry.find table62 xo.toNat = some e)
    (hv : e.emit (formDS 62 rt ra ds xo) = v) : decode (formDS 62 rt ra ds xo) = v :=
  decode_of_group (g := .g62) (fieldOPCD_formDS ..) rfl (congrArg BitVec.toNat (fieldXO2_formDS ..)) he hv

/-- The second table of group 31 answers where the first has no entry, whatever OE is (R126). -/
theorem decode_formXO {oe : Bool} {xo : BitVec 9}
    (hclear : Entry.find table31 (BitVec.ofBool false ++ xo).toNat = none)
    (hset : Entry.find table31 (BitVec.ofBool true ++ xo).toNat = none)
    (he : Entry.find table31XO xo.toNat = some e) (hv : e.emit (formXO 31 rt ra rb oe xo rc) = v) :
    decode (formXO 31 rt ra rb oe xo rc) = v := by
  have hfirst : Entry.find table31 (BitVec.ofBool oe ++ xo).toNat = none := by
    cases oe with
    | false => exact hclear
    | true => exact hset
  refine decode_of_primary (e := .group .g31) (fieldOPCD_formXO ..) rfl ?_
  rw [Entry.resolve, groupEntry, fieldXO10_formXO, fieldXO9_formXO, hfirst, he]
  exact hv

/-- The key of an MD-form word ends in the top bit of SH, so that an instruction has two keys (R124). -/
theorem decode_formMD {sh mbe : BitVec 6} {xo : BitVec 3}
    (hclear : Entry.find table30 (xo ++ 0#1).toNat = some e) (hset : Entry.find table30 (xo ++ 1#1).toNat = some e)
    (hv : e.emit (formMD 30 rt ra sh mbe xo rc) = v) : decode (formMD 30 rt ra sh mbe xo rc) = v := by
  refine decode_of_group (g := .g30) (fieldOPCD_formMD ..) rfl (congrArg BitVec.toNat (fieldXO4_formMD ..)) ?_ hv
  obtain htop | htop := BitVec.eq_zero_or_eq_one (sh.extractLsb' 5 1)
  · exact htop ▸ hclear
  · exact htop ▸ hset

/-- The key of an XS-form word ends in the top bit of SH too (R125). -/
theorem decode_formXS {sh : BitVec 6} {xo : BitVec 9}
    (hclear : Entry.find table31 (xo ++ 0#1).toNat = some e) (hset : Entry.find table31 (xo ++ 1#1).toNat = some e)
    (hv : e.emit (formXS 31 rt ra sh xo rc) = v) : decode (formXS 31 rt ra sh xo rc) = v := by
  refine decode_of_group (g := .g31) (fieldOPCD_formXS ..) rfl (congrArg BitVec.toNat (fieldXO10_formXS ..)) ?_ hv
  obtain htop | htop := BitVec.eq_zero_or_eq_one (sh.extractLsb' 5 1)
  · exact htop ▸ hclear
  · exact htop ▸ hset

end Forms

/-! ### The round trip -/

/-- The word of an instruction that no other variant takes decodes to that instruction, up to the check of R130. -/
theorem decode_encode_checked {i : Instr} (h : i.variantValid = true) : decode (encode i) = checked i := by
  cases i with
  | reserved => cases h
  | passthrough w => exact decode_of_isPassthroughWord w h
  -- D form, and the variants of RA = 0 and of nop
  | li | lis => exact decode_of_primary (fieldOPCD_formD ..) rfl (emit_first (by simp [encode]) (by simp [encode]))
  | addi | addis | ori =>
    exact decode_of_primary (fieldOPCD_formD ..) rfl (emit_fallback (by simpa [encode] using h) (by simp [encode]))
  | nop => exact decode_of_primary (fieldOPCD_formD ..) rfl (emit_first (by simp [encode]) rfl)
  | tdi | twi | mulli | subfic | cmpli | cmpi | addic | addicRc | oris | xori | xoris | andiRc | andisRc | lwz | lwzu
  | lbz | lbzu | stw | stwu | stb | stbu | lhz | lhzu | lha | lhau | sth | sthu =>
    exact decode_of_primary (fieldOPCD_formD ..) rfl (emit_fixed (by simp [encode]))
  -- B, I, SC and M forms
  | bc | bca | bcl | bcla =>
    exact decode_of_primary (fieldOPCD_formB ..) rfl (emit_fixed (by simp [encode, condBranchB]))
  | b | ba | bl | bla => exact decode_of_primary (fieldOPCD_formI ..) rfl (emit_fixed (by simp [encode, branchI]))
  | sc => exact decode_of_primary (fieldOPCD_formSC ..) rfl (emit_fixed (by simp [encode]))
  | rlwimi | rlwinm | rlwnm => exact decode_of_primary (fieldOPCD_formM ..) rfl (emit_fixed (by simp [encode]))
  -- group 19
  | bclr | bclrl => exact decode_formX19 rfl (emit_fixed (by simp [branchLR]))
  | bcctr | bcctrl => exact decode_formX19 rfl (emit_fixed (by simp [branchCTR]))
  | mcrf | rfid | crnor | crandc | isync | crxor | crnand | crand | hrfid | creqv | crorc | cror =>
    exact decode_formX19 rfl (emit_fixed (by simp))
  -- group 30
  | rldicl | rldicr | rldic | rldimi => exact decode_formMD rfl rfl (emit_fixed (by simp))
  | rldcl | rldcr => exact decode_formMDS rfl (emit_fixed (by simp))
  -- group 31, first table
  | mfcr | mtcrf => exact decode_formXFXCr rfl (emit_first (by simp) (by simp))
  | mfocrf | mtocrf => exact decode_formXFXCr rfl (emit_fallback (by simp) (by simp))
  | mfspr | mftb | mtspr => exact decode_formXFXSpr rfl (emit_fixed (by simp))
  | sradi => exact decode_formXS rfl rfl (emit_fixed (by simp))
  | mr => exact decode_formX31 rfl (emit_first (by simp) (by simp))
  | or => exact decode_formX31 rfl (emit_fallback (by simpa using h) (by simp))
  | cmp | tw | mulhdu | mulhwu | lwarx | ldx | lwzx | slw | cntlzw | sld | and | cmpl | ldux | dcbst | lwzux | cntlzd
  | andc | td | mulhd | mulhw | mfmsr | ldarx | dcbf | lbzx | lbzux | nor | mtmsr | stdx | stwcx | stwx | mtmsrd | stdux
  | stwux | stdcx | stbx | dcbtst | stbux | tlbiel | dcbt | lhzx | eqv | tlbie | lhzux | xor | lwax | lhax | tlbia
  | lwaux | lhaux | slbmte | sthx | orc | slbie | sthux | nand | slbia | lwbrx | srw | srd | tlbsync | sync | stwbrx
  | lhbrx | sraw | srad | srawi | slbmfev | eieio | slbmfee | sthbrx | extsh | extsb | icbi | extsw | dcbz =>
    exact decode_formX31 rfl (emit_fixed (by simp))
  -- group 31, second table
  | subfc | addc | subf | neg | subfe | adde | subfze | addze | subfme | mulld | addme | mullw | add | divdu | divwu
  | divd | divw => exact decode_formXO rfl rfl rfl (emit_fixed (by simp))
  -- groups 58 and 62
  | ld | ldu | lwa => exact decode_formDS58 rfl (emit_fixed (by simp))
  | std | stdu => exact decode_formDS62 rfl (emit_fixed (by simp))

/-- Settles O1: the word's entry emits the instruction, and the check of R130 passes. -/
theorem decodeOfEncode : Obligations.DecodeOfEncode := by
  intro i h
  obtain ⟨hupdate, hvariant⟩ := Bool.and_eq_true_iff.1 h
  exact (decode_encode_checked hvariant).trans (checked_eq_success.2 ⟨hupdate, rfl⟩)

/-! ### Unused bits (R134) and example words -/

/-- sc reads LEV alone (R116). -/
theorem decode_sc (x : BitVec 14) (lev : BitVec 7) (y : BitVec 5) :
    decode (17#6 ++ x ++ lev ++ y) = .success (.sc lev) := by
  have hop : fieldOPCD (17#6 ++ x ++ lev ++ y) = 17#6 := by
    simp (decide := true) only [fieldOPCD, extract_append_high, Nat.reduceSub, BitVec.extractLsb'_eq_self]
  have hlev : fieldLEV (17#6 ++ x ++ lev ++ y) = lev := by
    simp (decide := true) only [fieldLEV, extract_append_high, extract_append_low, Nat.reduceSub,
      BitVec.extractLsb'_eq_self]
  exact decode_of_primary hop rfl (emit_fixed (i := .sc lev) (congrArg Instr.sc hlev))

/-- Settles O5: none of the fields that the emitted instruction is made of holds one of the unused bits. -/
theorem unusedBitsIgnored : Obligations.UnusedBitsIgnored := by
  refine ⟨decode_sc, ?extsw, ?cmp, ?cmpi, ?sync, ?isync, ?eieio, ?addme, ?mfcr, ?mcrf⟩
  case extsw => exact fun rs ra rb rc => decode_formX31 rfl (emit_fixed (i := .extsw rs ra rc) (by simp))
  case cmp => exact fun bf x y l ra rb => decode_formX31 rfl (emit_fixed (i := .cmp bf l ra rb) (by simp))
  case cmpi =>
    exact fun bf x l ra si =>
      decode_of_primary (fieldOPCD_formD ..) rfl (emit_fixed (i := .cmpi bf l ra si) (by simp))
  case sync => exact fun x l ra rb y => decode_formX31 rfl (emit_fixed (i := .sync l) (by simp))
  case isync => exact fun x y z b => decode_formX19 rfl (emit_fixed rfl)
  case eieio => exact fun x y z b => decode_formX31 rfl (emit_fixed rfl)
  case addme => exact fun rt ra x oe rc => decode_formXO rfl rfl rfl (emit_fixed (i := .addme rt ra oe rc) (by simp))
  case mfcr => exact fun rt fxm => decode_formXFXCr rfl (emit_first (i := .mfcr rt) (by simp) (by simp))
  case mcrf => exact fun bf bfa x y z b => decode_formX19 rfl (emit_fixed (i := .mcrf bf bfa) (by simp))

theorem decode_of_encode_eq {i : Instr} {w : InsnWord} (hw : encode i = w) (hi : i.wellFormed = true) :
    decode w = .success i := hw ▸ decodeOfEncode i hi

/-- Settles O6: each word is the one its instruction encodes to, but for an unused bit that the word of sc sets. -/
theorem exampleWordsDecode : Obligations.ExampleWordsDecode := by
  refine ⟨?_, ?_, ?_, ?_, ?_, ?_, ?_, ?_, ?_, ?_, ?_, ?_, ?_, ?_, ?_, ?_, ?_, ?_, ?_, ?_, ?sc⟩
  case sc => exact decode_sc 0#14 0#7 2#5
  all_goals exact decode_of_encode_eq (by decide) (by decide)

end Sys2Proof
end

section
/-! PROOFS. Sign extension by R117 and the rotate mask of R119, bit by bit. -/

namespace Sys2Proof

/-- A field written into a wider destination and extended by R117 is the field's two's-complement extension. -/
theorem signExtendField_setWidth {n dest : Nat} (v : BitVec n) (hpos : 0 < n) (hn : n ≤ dest) :
    signExtendField n (v.setWidth dest) = v.signExtend dest := by
  have htop : (v.setWidth dest).getLsbD (n - 1) = v.msb := by
    rw [BitVec.getLsbD_setWidth, BitVec.msb_eq_getLsbD_last, decide_eq_true (by omega), Bool.true_and]
  apply BitVec.eq_of_getLsbD_eq
  intro i hi
  rw [signExtendField, htop, BitVec.getLsbD_signExtend]
  by_cases hin : i < n
  · cases v.msb <;> simp [hi, hin]
  · have hlow : v.getLsbD i = false := BitVec.getLsbD_of_ge v i (by omega)
    cases v.msb <;> simp [hi, hin, hlow]

theorem signExtendField_toInt {n dest : Nat} (v : BitVec n) (hpos : 0 < n) (hn : n ≤ dest) :
    (signExtendField n (v.setWidth dest)).toInt = v.toInt := by
  rw [signExtendField_setWidth v hpos hn, BitVec.toInt_signExtend_of_le hn]

/-- Settles O7: every pair of a width and a destination is a case of the extension at any two widths. -/
theorem signExtensionKeepsValue : Obligations.SignExtensionKeepsValue := by
  refine ⟨fun v => ?_, fun v => ?_, fun v => ?_, fun v => ?_, fun v => ?_, fun v => ?_, fun v => ?whole⟩
  case whole => simpa using signExtendField_setWidth (dest := 32) v (by omega) le_rfl
  all_goals exact signExtendField_toInt v (by omega) (by omega)

/-- Bit 63 - i, which is IBM bit i, of the ones from `mb` on, and of the ones up to `me`. -/
theorem getLsbD_fromBegin {mb i : Nat} (hi : i < 64) :
    (BitVec.allOnes 64 >>> mb).getLsbD (63 - i) = decide (mb ≤ i) := by
  rw [BitVec.getLsbD_ushiftRight, BitVec.getLsbD_allOnes, decide_eq_decide]
  omega

theorem getLsbD_toEnd {me i : Nat} (hme : me < 64) (hi : i < 64) :
    (BitVec.allOnes 64 <<< (63 - me)).getLsbD (63 - i) = decide (i ≤ me) := by
  rw [BitVec.getLsbD_shiftLeft, BitVec.getLsbD_allOnes, Bool.eq_iff_iff]
  simp only [Bool.and_eq_true, Bool.not_eq_true', decide_eq_true_eq, decide_eq_false_iff_not]
  omega

/-- IBM bit i of the mask (R119). -/
theorem rotateMask_getLsbD {mb me i : Nat} (hme : me < 64) (hi : i < 64) :
    (rotateMask mb me).getLsbD (63 - i) = true ↔
      if mb ≤ me then mb ≤ i ∧ i ≤ me else mb ≤ i ∨ i ≤ me := by
  unfold rotateMask
  split
  · rw [BitVec.getLsbD_and, getLsbD_fromBegin hi, getLsbD_toEnd hme hi, Bool.and_eq_true, decide_eq_true_iff,
      decide_eq_true_iff]
  · rw [BitVec.getLsbD_or, getLsbD_fromBegin hi, getLsbD_toEnd hme hi, Bool.or_eq_true, decide_eq_true_iff,
      decide_eq_true_iff]

/-- Every mask has the bit it begins at. -/
theorem rotateMask_ne_zero {mb me : Nat} (hmb : mb < 64) (hme : me < 64) : rotateMask mb me ≠ 0#64 := by
  intro h
  have hbit := (rotateMask_getLsbD (mb := mb) hme hmb).2 (by split <;> omega)
  simp [h] at hbit

theorem rotateMask_eq_allOnes {mb me : Nat} (hmb : mb < 64) (hme : me < 64) (h : mb % 64 = (me + 1) % 64) :
    rotateMask mb me = BitVec.allOnes 64 := by
  apply BitVec.eq_of_getLsbD_eq
  intro j hj
  have hbit := (rotateMask_getLsbD (mb := mb) (i := 63 - j) hme (by omega)).2 (by split <;> omega)
  rw [show 63 - (63 - j) = j by omega] at hbit
  rw [hbit, BitVec.getLsbD_allOnes, decide_eq_true hj]

/-- Settles O8: the second and third part read the bits of the first. -/
theorem rotateMaskBits : Obligations.RotateMaskBits :=
  ⟨fun _ _ _ _ hme hi => rotateMask_getLsbD hme hi, fun _ _ => rotateMask_ne_zero, fun _ _ => rotateMask_eq_allOnes⟩

end Sys2Proof
end

section
/-! PROOFS. The step on a word that is fetched and decoded (60_exceptions.md R602). -/

namespace Sys2Proof.Machine

theorem fetchStop_eq_none {s : State} (hexit : s.pc ≠ s.exit) (halign : s.pc.toNat % 4 = 0)
    (hadm : s.admits s.pc 4 .fetch = true) (hmark : ∀ k, k < 4 → (s.pc + BitVec.ofNat 64 k).toNat ∉ s.written) :
    s.fetchStop = none := by
  have hany : anyWritten s.written s.pc 4 = false := by
    rw [Bool.eq_false_iff, ne_eq, anyWritten_iff]
    rintro ⟨k, hk, hmem⟩
    exact hmark k hk hmem
  simp [State.fetchStop, hexit, (aligned_iff s.pc 4).2 halign, hadm, hany]

theorem ofNat_append_byte (w v : Nat) (b : Byte) :
    BitVec.ofNat (w + 8) (v * 256 + b.toNat) = BitVec.ofNat w v ++ b := by
  have hb := b.isLt
  have hlow : (v * 256 + b.toNat) % 2 ^ 8 = b.toNat := by omega
  have hhigh : (v * 256 + b.toNat) / 2 ^ 8 = v := by omega
  apply BitVec.eq_of_toNat_eq
  rw [BitVec.toNat_append, ← Nat.shiftLeft_add_eq_or_of_lt hb, Nat.shiftLeft_eq, BitVec.toNat_ofNat,
    BitVec.toNat_ofNat, Nat.pow_add, Nat.mul_comm (2 ^ w), Nat.mod_mul, hlow, hhigh]
  omega

theorem ofNat_beValue_four (b0 b1 b2 b3 : Byte) :
    BitVec.ofNat 32 (beValue [b0, b1, b2, b3]) = b0 ++ b1 ++ b2 ++ b3 := by
  have hvalue : beValue [b0, b1, b2, b3] = ((b0.toNat * 256 + b1.toNat) * 256 + b2.toNat) * 256 + b3.toNat := by
    simp [beValue]
  rw [hvalue, ofNat_append_byte 24, ofNat_append_byte 16, ofNat_append_byte 8, BitVec.ofNat_toNat,
    BitVec.setWidth_eq]

/-- The word at PC is its four bytes, the first the most significant (R76, R100). -/
theorem fetchWord_eq_append (s : State) :
    s.fetchWord = s.mem.read s.pc.toNat ++ s.mem.read (s.pc + 1#64).toNat ++ s.mem.read (s.pc + 2#64).toNat
      ++ s.mem.read (s.pc + 3#64).toNat := by
  have hreads : readBytes s.mem s.pc 4 = [s.mem.read s.pc.toNat, s.mem.read (s.pc + 1#64).toNat,
      s.mem.read (s.pc + 2#64).toNat, s.mem.read (s.pc + 3#64).toNat] := by
    simp [readBytes, BitVec.add_assoc]
  rw [State.fetchWord, memRead, hreads]
  exact ofNat_beValue_four ..

theorem step_of_decode {s : State} {i : Instr} (hstop : s.fetchStop = none) (hdec : decode s.fetchWord = .success i) :
    step s = exec i s := by
  unfold step
  rw [hstop, hdec]

/-- Settles O10: no check of the fetch stops the step, and the word fetched is the one of the four bytes. -/
theorem stepRunsDecoded : Obligations.StepRunsDecoded := fun s _ hexit halign hadm hmark hdec =>
  step_of_decode (fetchStop_eq_none hexit halign hadm hmark) (fetchWord_eq_append s ▸ hdec)

end Sys2Proof.Machine
end

section
/-! PROOFS. Where a branch ends and what it writes (40_branch.md R200 to R227), and the operands refused before any
register is read (R214; 46_system.md R502, R503, R529). -/

namespace Sys2Proof.Machine

open Sys2Proof.Safety Sys2Proof.Claims

theorem dispLI_eq (li : BitVec 24) : dispLI li = (li ++ 0#2).signExtend 64 := sext_eq_signExtend _ (by omega) (by omega)

/-! ### The end of a branch -/

section Ends

variable {i : Instr} {bo bi : BitVec 5} {taken link : Bool} {target : Word} {s : State}

theorem finishBranch_taken (link : Bool) (target : Word) (s : State) :
    finishBranch true link target s
      = .next { s with lr := if link then some (s.pc + 4#64) else s.lr, pc := target } := rfl

theorem finishBranch_untaken (link : Bool) (target : Word) (s : State) :
    finishBranch false link target s = .next { s with pc := s.pc + 4#64 } := rfl

theorem branchEnds_of_finishBranch {P : Prop} {ctr : Option Word} (htaken : taken = true ↔ P)
    (hi : exec i s = finishBranch taken link target { s with ctr := ctr }) : BranchEnds i link P target ctr s := by
  refine ⟨fun hp => ?_, fun hp => ?_⟩
  · rw [hi, htaken.2 hp, finishBranch_taken]
  · rw [hi, Bool.eq_false_iff.2 (mt htaken.1 hp), finishBranch_untaken]

/-! ### The tests -/

/-- The CTR test as the options say it: BO3 asks for a decremented value of 0, its absence for another (R206). -/
theorem ctrTest_iff (bo : BitVec 5) (c : Word) :
    ctrTest bo c = true ↔ (bo.getLsbD 1 = false ∧ c ≠ 0#64) ∨ (bo.getLsbD 1 = true ∧ c = 0#64) := by
  change (if bo.getLsbD 1 then c == 0#64 else c != 0#64) = true ↔ _
  cases bo.getLsbD 1 <;> simp

/-- The CR-bit test: waived by BO0, and otherwise the bit is BO1 (R207). -/
theorem condTest_iff (bo bi : BitVec 5) (cr : BitVec 32) :
    condTest bo bi cr = true ↔ bo.getLsbD 4 = true ∨ cr.getLsbD (31 - bi.toNat) = bo.getLsbD 3 := by
  rw [condTest, Bool.or_eq_true, beq_iff_eq]
  rfl

theorem condTest_iff_taken (hbo : bo.getLsbD 2 = true) (c : Word) (cr : BitVec 32) :
    condTest bo bi cr = true ↔ Taken bo bi c cr := by
  rw [condTest_iff, Taken, and_iff_right (.inl hbo)]

theorem tests_iff_taken (hbo : bo.getLsbD 2 = false) (c : Word) (cr : BitVec 32) :
    (ctrTest bo c && condTest bo bi cr) = true ↔ Taken bo bi c cr := by
  simp only [Bool.and_eq_true, ctrTest_iff, condTest_iff, Taken, hbo, Bool.false_eq_true, false_or]

/-! ### The shared step -/

theorem ctrDecrements_eq_false_iff (bo : BitVec 5) : ctrDecrements bo = false ↔ bo.getLsbD 2 = true := by
  rw [← Bool.not_eq_true, ctrDecrements_iff, Bool.not_eq_false]

/-- "Always" has BO2 = 1, so that it never goes with a decrement (R204, R205). -/
theorem not_always_of_decrements (hbo : bo.getLsbD 2 = false) : ¬ Always bo := by
  revert bo
  unfold Always
  decide

theorem bcStep_always {target : Option Word} (hbo : Always bo) :
    bcStep bo bi link target s = withOperand target fun g => finishBranch true link g s :=
  if_pos ((branchAlways_iff bo).2 hbo)

theorem bcStep_decrement {target : Option Word} (hbo : bo.getLsbD 2 = false) :
    bcStep bo bi link target s = withOperand s.ctr fun c => withOperand target fun g =>
      finishBranch (ctrTest bo (c - 1#64) && condTest bo bi s.cr) link g { s with ctr := some (c - 1#64) } :=
  (if_neg (mt (branchAlways_iff bo).1 (not_always_of_decrements hbo))).trans (if_pos ((ctrDecrements_iff bo).2 hbo))

theorem bcStep_condition {target : Option Word} (halways : ¬ Always bo) (hbo : bo.getLsbD 2 = true) :
    bcStep bo bi link target s = withOperand target fun g => finishBranch (condTest bo bi s.cr) link g s :=
  (if_neg (mt (branchAlways_iff bo).1 halways)).trans
    (if_neg (Bool.not_eq_true _ ▸ (ctrDecrements_eq_false_iff bo).2 hbo))

/-- A target in an unset register faults, whichever tests are requested. -/
theorem bcStep_unset (bo bi : BitVec 5) (link : Bool) (s : State) :
    bcStep bo bi link none s = .fault .unsetRegister := by
  by_cases halways : Always bo
  · exact bcStep_always halways
  cases hbo : bo.getLsbD 2 with
  | true => exact bcStep_condition halways hbo
  | false => exact (bcStep_decrement hbo).trans (withOperand_fault_right rfl)

theorem conditionalBranch_of_bcStep (hi : exec i s = bcStep bo bi link (some target) s) :
    ConditionalBranch i bo bi link target s := by
  refine ⟨fun halways => ?_, fun halways hbo => ?_, fun c _ hbo hc => ?_, fun hbo hc => ?_⟩
  · exact branchEnds_of_finishBranch (iff_of_true rfl trivial) (hi.trans (bcStep_always halways))
  · exact branchEnds_of_finishBranch (condTest_iff_taken hbo _ _) (hi.trans (bcStep_condition halways hbo))
  · exact branchEnds_of_finishBranch (tests_iff_taken hbo _ _)
      ((hi.trans (bcStep_decrement hbo)).trans (withOperand_of_some hc))
  · exact (hi.trans (bcStep_decrement hbo)).trans (withOperand_unset hc)

/-- Without a decrement the branch is taken always or on the CR bit, and CTR is kept. -/
theorem branchEnds_of_bcStep (hbo : bo.getLsbD 2 = true) (hi : exec i s = bcStep bo bi link (some target) s) :
    BranchEnds i link (Always bo ∨ Taken bo bi 0#64 s.cr) target s.ctr s := by
  by_cases halways : Always bo
  · exact branchEnds_of_finishBranch (iff_of_true rfl (.inl halways)) (hi.trans (bcStep_always halways))
  · exact branchEnds_of_finishBranch ((condTest_iff_taken hbo _ _).trans (or_iff_right halways).symm)
      (hi.trans (bcStep_condition halways hbo))

end Ends

/-! ### The instructions -/

theorem branchB_of_exec {mk : BitVec 5 → BitVec 5 → BitVec 14 → Instr} {absolute link : Bool}
    (hmk : ∀ bo bi bd s, exec (mk bo bi bd) s = branchB absolute link bo bi bd s) : BranchB mk absolute link :=
  fun bo bi bd s => conditionalBranch_of_bcStep (hmk bo bi bd s)

theorem branchLR_of_exec {mk : BitVec 5 → BitVec 5 → BitVec 2 → Instr} {link : Bool}
    (hmk : ∀ bo bi bh s, exec (mk bo bi bh) s = branchToLR link bo bi s) : BranchLR mk link := by
  intro bo bi bh s
  have hexec := hmk bo bi bh s
  unfold branchToLR at hexec
  refine ⟨fun l hl => ?_, fun hl => ?_⟩ <;> rw [hl] at hexec
  · exact conditionalBranch_of_bcStep hexec
  · exact hexec.trans (bcStep_unset bo bi link s)

theorem branchToCTR_decrement {link : Bool} {bo bi : BitVec 5} (hbo : bo.getLsbD 2 = false) (s : State) :
    branchToCTR link bo bi s = .refused .bcctrDecrement := if_pos ((ctrDecrements_iff bo).2 hbo)

theorem branchToCTR_keep {link : Bool} {bo bi : BitVec 5} (hbo : bo.getLsbD 2 = true) (s : State) :
    branchToCTR link bo bi s = bcStep bo bi link (s.ctr.map registerTarget) s :=
  if_neg (Bool.not_eq_true _ ▸ (ctrDecrements_eq_false_iff bo).2 hbo)

theorem branchCTR_of_exec {mk : BitVec 5 → BitVec 5 → BitVec 2 → Instr} {link : Bool}
    (hmk : ∀ bo bi bh s, exec (mk bo bi bh) s = branchToCTR link bo bi s) : BranchCTR mk link := by
  intro bo bi bh s hbo
  have hexec := (hmk bo bi bh s).trans (branchToCTR_keep hbo s)
  refine ⟨fun c hc => ?_, fun hc => ?_⟩
  · exact branchEnds_of_bcStep hbo (by rw [hexec, hc]; rfl)
  · exact hexec.trans (hc ▸ bcStep_unset bo bi link s)

/-- Settles O30: each form is the end of a taken branch at its target. -/
theorem unconditionalBranches : Obligations.UnconditionalBranches := by
  intro li s
  simp only [← dispLI_eq]
  exact ⟨finishBranch_taken false _ s, finishBranch_taken false _ s, finishBranch_taken true _ s,
    finishBranch_taken true _ s⟩

/-- Settles O31: every conditional branch is the shared step BC_STEP with its own target. -/
theorem conditionalBranches : Obligations.ConditionalBranches := by
  refine ⟨branchB_of_exec ?bc, branchB_of_exec ?bca, branchB_of_exec ?bcl, branchB_of_exec ?bcla,
    branchLR_of_exec ?bclr, branchLR_of_exec ?bclrl, branchCTR_of_exec ?bcctr, branchCTR_of_exec ?bcctrl⟩
  all_goals
    intros
    rfl

/-! ### Refused operands -/

section Refused

variable {n : BitVec 10}

theorem readSpr_refused (hn : n ∉ [1#10, 8#10, 9#10, 268#10, 269#10]) (s : State) : s.readSpr n = .refusedNumber := by
  simp only [List.mem_cons, List.not_mem_nil, or_false, not_or] at hn
  simp [State.readSpr, hn]

theorem writeSpr_refused (hn : n ∉ [1#10, 8#10, 9#10]) (s : State) : s.writeSpr n = none := by
  simp only [List.mem_cons, List.not_mem_nil, or_false, not_or] at hn
  simp [State.writeSpr, hn]

theorem execMfspr_refused (rt : Reg) {s : State} (h : s.readSpr n = .refusedNumber) :
    execMfspr rt n s = .refused (.unmodelledSPR n) := by
  rw [execMfspr, h]
  rfl

theorem execMtspr_refused (rs : Reg) {s : State} (h : s.writeSpr n = none) :
    execMtspr rs n s = .refused (.unmodelledSPR n) := by
  rw [execMtspr, h]
  rfl

theorem execMftb_refused (rt : Reg) (hn : n ∉ [268#10, 269#10]) (s : State) :
    execMftb rt n s = .refused (.unmodelledSPR n) := by
  simp only [List.mem_cons, List.not_mem_nil, or_false] at hn
  exact if_neg hn

end Refused

/-- Settles O55: the number is looked up, and BO2 tested, before any register is read. -/
theorem operandsRefused : Obligations.OperandsRefused := fun r _ _ _ _ s =>
  ⟨fun hn => execMfspr_refused r (readSpr_refused hn s), fun hn => execMtspr_refused r (writeSpr_refused hn s),
    fun hn => execMftb_refused r hn s, fun hbo => ⟨branchToCTR_decrement hbo s, branchToCTR_decrement hbo s⟩⟩

end Sys2Proof.Machine
end

section
/-! PROOFS. The words of the branches, and the control-flow edges against the execution (40_branch.md R230 to R238). -/

namespace Sys2Proof.Machine

open Sys2Proof.Safety

section Words

variable {w : InsnWord}

/-! ### What a branch word decodes to -/

theorem decode_branchI (hop : fieldOPCD w = 18#6) : decode w = .success (branchI w) :=
  decode_of_primary hop rfl (checked_eq_success.2 ⟨branchI_valid w, rfl⟩)

theorem decode_condBranchB (hop : fieldOPCD w = 16#6) : decode w = .success (condBranchB w) :=
  decode_of_primary hop rfl (checked_eq_success.2 ⟨condBranchB_valid w, rfl⟩)

theorem decode_branchLR (hop : fieldOPCD w = 19#6) (hkey : (fieldXO10 w).toNat = 16) :
    decode w = .success (branchLR w) :=
  decode_of_group (g := .g19) hop rfl hkey rfl (checked_eq_success.2 ⟨branchLR_valid w, rfl⟩)

theorem decode_branchCTR (hop : fieldOPCD w = 19#6) (hkey : (fieldXO10 w).toNat = 528) :
    decode w = .success (branchCTR w) :=
  decode_of_group (g := .g19) hop rfl hkey rfl (checked_eq_success.2 ⟨branchCTR_valid w, rfl⟩)

variable (w)

theorem branchI_isBranch : isBranch (branchI w) = true := by
  unfold branchI
  split <;> rfl

theorem condBranchB_isBranch : isBranch (condBranchB w) = true := by
  unfold condBranchB
  split <;> rfl

theorem branchLR_isBranch : isBranch (branchLR w) = true := by
  unfold branchLR
  split <;> rfl

theorem branchCTR_isBranch : isBranch (branchCTR w) = true := by
  unfold branchCTR
  split <;> rfl

/-! ### What a branch word with an immediate target does -/

theorem exec_branchI (s : State) :
    exec (branchI w) s = finishBranch true (fieldLK w) (branchTarget (fieldAA w) (dispLI (fieldLI w)) s.pc) s := by
  unfold branchI
  cases fieldAA w <;> cases fieldLK w <;> rfl

theorem exec_condBranchB (s : State) :
    exec (condBranchB w) s = branchB (fieldAA w) (fieldLK w) (fieldRT w) (fieldRA w) (fieldBD w) s := by
  unfold condBranchB
  cases fieldAA w <;> cases fieldLK w <;> rfl

end Words

/-! ### Edges -/

/-- The address of one of the edges. -/
def OnEdge (es : List (EdgeKind × Word)) (addr : Word) : Prop := ∃ e ∈ es, e.2 = addr

section Edges

variable {w : InsnWord} {i : Instr} {always taken link : Bool} {target addr : Word} {s t : State}

theorem onEdge_target (always link : Bool) (target addr : Word) : OnEdge (edgesTo always link target addr) target := by
  cases always <;> exact ⟨_, List.mem_cons_self, rfl⟩

theorem onEdge_fallThrough (link : Bool) (target addr : Word) :
    OnEdge (edgesTo false link target addr) (addr + 4#64) := ⟨_, List.mem_cons_of_mem _ List.mem_cons_self, rfl⟩

/-- A branch that has no fall-through edge is taken. -/
theorem finishBranch_onEdge (htaken : always = true → taken = true) (h : finishBranch taken link target s = .next t) :
    OnEdge (edgesTo always link target s.pc) t.pc := by
  obtain ⟨-, rfl⟩ | ⟨huntaken, rfl⟩ := finishBranch_next h
  · exact onEdge_target always link target s.pc
  · cases always with
    | true => simp [htaken rfl] at huntaken
    | false => exact onEdge_fallThrough link target s.pc

theorem bcStep_onEdge {bo bi : BitVec 5} (h : bcStep bo bi link (some target) s = .next t) :
    OnEdge (edgesTo (branchAlways bo) link target s.pc) t.pc := by
  obtain ⟨g, hg, h⟩ := bcStep_next h
  cases hg
  obtain ⟨-, h⟩ | ⟨halways, -, c, -, h⟩ | ⟨halways, -, h⟩ := h
  · exact finishBranch_onEdge (fun _ => rfl) h
  · exact finishBranch_onEdge (s := { s with ctr := some (c - 1#64) }) (by simp [halways]) h
  · exact finishBranch_onEdge (by simp [halways]) h

theorem edges_branchI (hop : fieldOPCD w = 18#6) (addr : Word) : edges w addr
    = edgesTo true (fieldLK w) (branchTarget (fieldAA w) (dispLI (fieldLI w)) addr) addr :=
  if_pos (congrArg BitVec.toNat hop)

theorem edges_condBranchB (hop : fieldOPCD w = 16#6) (addr : Word) : edges w addr
    = edgesTo (branchAlways (fieldRT w)) (fieldLK w) (branchTarget (fieldAA w) (dispBD (fieldBD w)) addr) addr := by
  simp [edges, hop]

/-- A word with an edge is a branch: the keys that `edges` reads are those of the four branch entries. -/
theorem edges_of_not_branch (hdec : decode w = .success i) (hi : isBranch i = false) (addr : Word) :
    edges w addr = [] := by
  have hnot {j : Instr} (hj : decode w = .success j) (hb : isBranch j = true) : False := by
    rw [hdec] at hj
    cases hj
    simp [hb] at hi
  have hop {op : BitVec 6} (h : (fieldOPCD w).toNat = op.toNat) : fieldOPCD w = op := BitVec.eq_of_toNat_eq h
  unfold edges
  dsimp only
  split_ifs with h18 h16 h19
  · exact (hnot (decode_branchI (hop h18)) (branchI_isBranch w)).elim
  · exact (hnot (decode_condBranchB (hop h16)) (condBranchB_isBranch w)).elim
  · rfl
  · obtain ⟨h19, hkey | hkey⟩ := h19
    · exact (hnot (decode_branchLR (hop h19) hkey) (branchLR_isBranch w)).elim
    · exact (hnot (decode_branchCTR (hop h19) hkey) (branchCTR_isBranch w)).elim
  · rfl

theorem branchI_onEdge (hop : fieldOPCD w = 18#6) (h : exec (branchI w) s = .next t) : OnEdge (edges w s.pc) t.pc := by
  rw [exec_branchI] at h
  rw [edges_branchI hop]
  exact finishBranch_onEdge (fun _ => rfl) h

theorem condBranchB_onEdge (hop : fieldOPCD w = 16#6) (h : exec (condBranchB w) s = .next t) :
    OnEdge (edges w s.pc) t.pc := by
  rw [exec_condBranchB] at h
  rw [edges_condBranchB hop]
  exact bcStep_onEdge h

end Edges

/-- Settles O32: the word's primary opcode says which branch it decodes to, and with it the edge it ends on. -/
theorem edgesAgreeWithExecution : Obligations.EdgesAgreeWithExecution := by
  intro w i s t hdec hexec
  refine ⟨?_, fun hi => edges_of_not_branch hdec hi s.pc⟩
  rintro (hop | hop)
  · obtain rfl := Verdict.success.inj (hdec.symm.trans (decode_branchI hop))
    exact branchI_onEdge hop hexec
  · obtain rfl := Verdict.success.inj (hdec.symm.trans (decode_condBranchB hop))
    exact condBranchB_onEdge hop hexec

end Sys2Proof.Machine
end

section
/-! PROOFS. The condition-register instructions (41_cr.md R250 to R264): bits and fields overwritten, the fields that
FXM selects (30_encoding.md R113), and the state each move leaves. -/

namespace Sys2Proof.Machine

open Sys2Proof.Safety Sys2Proof.Claims

/-! ### The ends -/

section Ends

variable (s : State) (cr : BitVec 32)

/-- An explicit CR write keeps all but CR and PC. -/
theorem crWritten_kept :
    XerKept s { s with cr := cr }.advance ∧ Frame [] s { s with cr := cr }.advance :=
  ⟨⟨rfl, rfl, rfl⟩, frame_of (fun _ _ => rfl) rfl rfl rfl rfl rfl rfl rfl rfl⟩

theorem crDrawn_kept :
    XerKept s { s.drawn with cr := cr }.advance ∧ Frame [] s { s.drawn with cr := cr }.advance :=
  ⟨⟨rfl, rfl, rfl⟩, frame_of (fun _ _ => rfl) rfl rfl rfl rfl rfl rfl rfl rfl⟩

theorem gprDrawn_onlyGprs (r : Reg) (v : Word) : OnlyGprs [r] s (s.drawn.setGpr r v).advance := by
  refine ⟨frame_of (fun q hq => ?_) rfl rfl rfl rfl rfl rfl rfl rfl, rfl, rfl, rfl, rfl⟩
  exact gprKept_setGpr s.drawn r v q hq

end Ends

/-! ### One bit -/

theorem flagRequest_eq_zero {i : Instr} (hcarry : carryProducing i = false) (hrecord : recordBit i = false)
    (hcompare : isCompare i = false) : flagRequest i = 0#2 := by
  rw [flagRequest, hcarry, hrecord, hcompare]
  rfl

/-- A CR-logical arm writes `CR[BT]` alone, whatever its operation. -/
theorem crLogical_of_exec {mk : BitVec 5 → BitVec 5 → BitVec 5 → Instr} {op : Bool → Bool → Bool}
    (hexec : ∀ bt ba bb s, exec (mk bt ba bb) s = crLogical op bt ba bb s)
    (hreq : ∀ bt ba bb, flagRequest (mk bt ba bb) = 0#2) : CrLogical mk op := by
  intro bt ba bb s
  obtain ⟨hxer, hframe⟩ := crWritten_kept s (setCrBit s.cr bt (op (crBit s.cr ba) (crBit s.cr bb)))
  refine ⟨_, hexec bt ba bb s, ?_, fun i hi => ?_, hxer, hframe, hreq bt ba bb⟩
  · exact (setCrBit_getLsbD s.cr bt bt _).trans (if_pos rfl)
  · exact (setCrBit_getLsbD s.cr bt i _).trans (if_neg hi)

theorem not_xor_eq_beq : (fun a b : Bool => !(a ^^ b)) = fun a b => a == b := by decide

/-- Settles O33: each operation is written to one bit, and the other bits are kept. -/
theorem crLogicalInstructions : Obligations.CrLogicalInstructions := by
  refine ⟨?crand, ?crnand, ?cror, ?crxor, ?crnor, ?creqv, ?crandc, ?crorc⟩
  case creqv =>
    rw [← not_xor_eq_beq]
    exact crLogical_of_exec (fun _ _ _ _ => rfl) fun _ _ _ => flagRequest_eq_zero rfl rfl rfl
  case crand | crnand | cror | crxor | crnor | crandc | crorc =>
    exact crLogical_of_exec (fun _ _ _ _ => rfl) fun _ _ _ => flagRequest_eq_zero rfl rfl rfl

/-! ### The fields that FXM selects -/

theorem sourceField_eq (v : Word) (f : BitVec 3) : sourceField v f = v.extractLsb' (28 - 4 * f.toNat) 4 := by
  apply BitVec.eq_of_getLsbD_eq
  intro i hi
  have hlow : 28 - 4 * f.toNat + i < 32 := by omega
  rw [sourceField, crField_getLsbD _ _ _ hi]
  simp [lowWord, hi, hlow]

/-- The eight CR fields, in the order in which the model goes through them. -/
def allFields : List (BitVec 3) := [0#3, 1#3, 2#3, 3#3, 4#3, 5#3, 6#3, 7#3]

theorem mem_allFields (f : BitVec 3) : f ∈ allFields := by
  revert f; decide

/-- Overwriting the selected fields of a list, one after the other: each write leaves the other fields as they are. -/
theorem crField_foldl_setCrField (p : BitVec 3 → Bool) (v : BitVec 3 → BitVec 4) (g : BitVec 3)
    (fs : List (BitVec 3)) (cr : BitVec 32) :
    crField (fs.foldl (fun acc f => if p f then setCrField acc f (v f) else acc) cr) g
      = if g ∈ fs ∧ p g then v g else crField cr g := by
  induction fs generalizing cr with
  | nil => simp
  | cons f fs ih =>
    rw [List.foldl_cons, ih]
    by_cases hgf : g = f
    · subst hgf
      by_cases hg : p g <;> simp [hg]
    · by_cases hf : p f <;> simp [hf, hgf, crField_setCrField]

/-- mtcrf field by field (R262). -/
theorem crField_moveToFields (cr : BitVec 32) (fxm : BitVec 8) (v : Word) (f : BitVec 3) :
    crField (moveToFields cr fxm v) f
      = if fxm.getLsbD (7 - f.toNat) then v.extractLsb' (28 - 4 * f.toNat) 4 else crField cr f := by
  rw [← sourceField_eq]
  exact (crField_foldl_setCrField (fxmSelects fxm) (sourceField v) f _ cr).trans
    (if_congr (and_iff_right (mem_allFields f)) rfl rfl)

/-- The end of an instruction that overwrites one CR field and nothing else. -/
theorem overwrites_field {i : Instr} {f : BitVec 3} {v : BitVec 4} {s : State}
    (hi : exec i s = .next { s with cr := setCrField s.cr f v }.advance) :
    Completes i s fun t => crField t.cr f = v ∧ OtherFieldsKept f s t ∧ XerKept s t ∧ Frame [] s t :=
  ⟨_, hi, crField_setCrField_self .., fun g hg => (crField_setCrField s.cr f g v).trans (if_neg hg),
    crWritten_kept s _⟩

/-- Settles O34: what each of the three moves leaves in CR, field by field, or in RT. -/
theorem crMoves : Obligations.CrMoves := by
  refine ⟨fun bf bfa s => ?mcrf, fun rt s => ?mfcr, fun rs fxm s v hv => ?mtcrf⟩
  case mcrf => exact overwrites_field rfl
  case mfcr =>
    rw [show 0#32 ++ s.cr = zext s.cr from (BitVec.setWidth_eq_append (by omega)).symm]
    exact only_gprs rfl
  case mtcrf =>
    exact ⟨_, withOperand_of_some hv, crField_moveToFields s.cr fxm v, crWritten_kept s _⟩

/-! ### One field selected, or not -/

theorem filter_allFields_beq (f : BitVec 3) : allFields.filter (· == f) = [f] := by
  revert f; decide

theorem filter_allFields_eq_singleton_iff (p : BitVec 3 → Bool) (f : BitVec 3) :
    allFields.filter p = [f] ↔ ∀ g, p g = true ↔ g = f := by
  constructor
  · intro h g
    have hmem : g ∈ allFields.filter p ↔ g ∈ [f] := by rw [h]
    rwa [List.mem_filter, and_iff_right (mem_allFields g), List.mem_singleton] at hmem
  · intro h
    have hp : p = (· == f) := funext fun g => Bool.eq_iff_iff.2 ((h g).trans beq_iff_eq.symm)
    rw [hp, filter_allFields_beq]

theorem fxmOneHot_eq_some_iff {fxm : BitVec 8} {f : BitVec 3} : fxmOneHot fxm = some f ↔ OneHot fxm f := by
  refine Iff.trans ?_ (filter_allFields_eq_singleton_iff (fxmSelects fxm) f)
  unfold fxmOneHot allFields
  split
  · next g hg => rw [hg, Option.some_inj, List.singleton_inj]
  · next hne => exact iff_of_false nofun (hne f)

theorem fxmOneHot_eq_none {fxm : BitVec 8} (h : ¬ ∃ f, OneHot fxm f) : fxmOneHot fxm = none :=
  Option.eq_none_iff_forall_ne_some.2 fun f hf => h ⟨f, fxmOneHot_eq_some_iff.1 hf⟩

/-! ### A field placed among the bits of a draw (R261) -/

/-- `d` with the four bits from bit `k` up replaced by `v`. -/
def placeField (d : Word) (k : Nat) (v : BitVec 4) : Word := (d &&& ~~~(0xF#64 <<< k)) ||| (zext v <<< k)

theorem placeField_getLsbD (d : Word) (k : Nat) (v : BitVec 4) (j : Nat) (hj : j < 64) :
    (placeField d k v).getLsbD j = if k ≤ j ∧ j < k + 4 then v.getLsbD (j - k) else d.getLsbD j := by
  have hfield (x : BitVec 4) : (zext x <<< k).getLsbD j = (!decide (j < k) && x.getLsbD (j - k)) := by
    have hsub : j - k < 64 := by omega
    simp only [zext, BitVec.getLsbD_shiftLeft, BitVec.getLsbD_setWidth, hj, hsub, decide_true, Bool.true_and]
  have hmask : (0xF#64 <<< k).getLsbD j = (!decide (j < k) && (BitVec.allOnes 4).getLsbD (j - k)) := hfield 0xF#4
  simp only [placeField, BitVec.getLsbD_or, BitVec.getLsbD_and, BitVec.getLsbD_not, hfield, hmask,
    BitVec.getLsbD_allOnes, hj, decide_true, Bool.true_and]
  by_cases hlow : j < k
  · have hout : ¬ k ≤ j := by omega
    simp [hlow, hout]
  · have hle : k ≤ j := by omega
    by_cases hhigh : j < k + 4
    · have hsub : j - k < 4 := by omega
      simp [hlow, hle, hhigh, hsub]
    · have hsub : ¬ j - k < 4 := by omega
      have hzero : v.getLsbD (j - k) = false := BitVec.getLsbD_of_ge _ _ (by omega)
      simp [hlow, hhigh, hsub, hzero]

theorem placeField_extractLsb' (d : Word) {k : Nat} (v : BitVec 4) (hk : k ≤ 28) :
    (placeField d k v).extractLsb' k 4 = v := by
  apply BitVec.eq_of_getLsbD_eq
  intro i hi
  rw [BitVec.getLsbD_extractLsb', placeField_getLsbD _ _ _ _ (by omega)]
  simp [hi]

theorem placeField_getLsbD_outside (d : Word) {k j : Nat} (v : BitVec 4) (hj : j < k ∨ k + 4 ≤ j) :
    (placeField d k v).getLsbD j = d.getLsbD j := by
  by_cases hlt : j < 64
  · rw [placeField_getLsbD _ _ _ _ hlt, if_neg (by omega)]
  · rw [BitVec.getLsbD_of_ge _ _ (by omega), BitVec.getLsbD_of_ge _ _ (by omega)]

section Moves

variable {r : Reg} {fxm : BitVec 8} {f : BitVec 3} {s : State} {v : Word}

theorem exec_mfocrf_of_oneHot (h : OneHot fxm f) : exec (.mfocrf r fxm) s
    = .next (s.drawn.setGpr r (placeField (s.draw 64) (28 - 4 * f.toNat) (crField s.cr f))).advance := by
  change execMfocrf r fxm s = _
  rw [execMfocrf, fxmOneHot_eq_some_iff.2 h]
  rfl

theorem exec_mfocrf_of_not_oneHot (h : ¬ ∃ f, OneHot fxm f) :
    exec (.mfocrf r fxm) s = .next (s.drawn.setGpr r (s.draw 64)).advance := by
  change execMfocrf r fxm s = _
  rw [execMfocrf, fxmOneHot_eq_none h]

theorem exec_mtocrf_of_oneHot (hv : s.readGpr r = some v) (h : OneHot fxm f) :
    exec (.mtocrf r fxm) s = .next { s with cr := setCrField s.cr f (sourceField v f) }.advance := by
  change execMtocrf r fxm s = _
  rw [execMtocrf, withOperand_of_some hv, fxmOneHot_eq_some_iff.2 h]

theorem exec_mtocrf_of_not_oneHot (hv : s.readGpr r = some v) (h : ¬ ∃ f, OneHot fxm f) :
    exec (.mtocrf r fxm) s = .next { s.drawn with cr := s.draw 32 }.advance := by
  change execMtocrf r fxm s = _
  rw [execMtocrf, withOperand_of_some hv, fxmOneHot_eq_none h]

end Moves

/-- Settles O35: a one-hot FXM moves its field, any other FXM moves a draw (assumption log 15). -/
theorem crOneFieldMoves : Obligations.CrOneFieldMoves := by
  refine ⟨fun rt fxm f s h => ?oneFrom, fun rt fxm s h => ?drawFrom, fun rs fxm f s v h hv => ?oneTo,
    fun rs fxm s v h hv => ?drawTo⟩
  case oneFrom =>
    exact ⟨_, exec_mfocrf_of_oneHot h, _, State.setGpr_readGpr_self .., placeField_extractLsb' _ _ (by omega),
      fun k hk => placeField_getLsbD_outside _ _ (by omega), gprDrawn_onlyGprs ..⟩
  case drawFrom =>
    exact ⟨_, exec_mfocrf_of_not_oneHot h, State.setGpr_readGpr_self .., gprDrawn_onlyGprs ..⟩
  case oneTo =>
    rw [← sourceField_eq]
    exact overwrites_field (exec_mtocrf_of_oneHot hv h)
  case drawTo =>
    exact ⟨_, exec_mtocrf_of_not_oneHot hv h, rfl, crDrawn_kept s _⟩

end Sys2Proof.Machine
end

section
/-! PROOFS. The loads and stores, with update and without: the value, the frame, and where the access stops
(42_load_store.md R280 to R285). -/

namespace Sys2Proof.Machine

open Sys2Proof.Safety Sys2Proof.Claims

/-! ### Effective addresses whose registers are set (R280) -/

section Addresses

variable {s : State} {ra rb : Reg} {base x : Word}

theorem eaD_of_some {d : BitVec 16} (h : s.readGprOrZero ra = some base) : eaD ra d s = some (base + sext d) := by
  simp [eaD, h]

theorem eaDS_of_some {ds : BitVec 14} (h : s.readGprOrZero ra = some base) :
    eaDS ra ds s = some (base + sext (ds ++ 0#2)) := by
  simp [eaDS, dispDS, h]

theorem eaX_of_some (h : s.readGprOrZero ra = some base) (hx : s.readGpr rb = some x) :
    eaX ra rb s = some (base + x) := by
  simp [eaX, h, hx]

theorem eaDUpdate_of_some {d : BitVec 16} (h : s.readGpr ra = some base) :
    eaDUpdate ra d s = some (base + sext d) := by
  simp [eaDUpdate, h]

theorem eaDSUpdate_of_some {ds : BitVec 14} (h : s.readGpr ra = some base) :
    eaDSUpdate ra ds s = some (base + sext (ds ++ 0#2)) := by
  simp [eaDSUpdate, dispDS, h]

theorem eaXUpdate_of_some (h : s.readGpr ra = some base) (hx : s.readGpr rb = some x) :
    eaXUpdate ra rb s = some (base + x) := by
  simp [eaXUpdate, h, hx]

end Addresses

/-! ### The values loaded and stored (R282, R283) -/

theorem loadValue_zero (n : Nat) (m : Memory) (a : Word) : loadValue .zero n m a = zext (memRead m a n) := rfl

theorem loadValue_reversed (n : Nat) (m : Memory) (a : Word) :
    loadValue .reversed n m a = zext (byteRev n (memRead m a n)) := rfl

theorem loadValue_algebraic {n : Nat} (m : Memory) (a : Word) (hpos : 0 < n) (hn : n ≤ 8) :
    loadValue .algebraic n m a = (memRead m a n).signExtend 64 :=
  sext_eq_signExtend _ (by omega) (by omega)

theorem storeValue_plain (n : Nat) (v : Word) : storeValue false n v = v.setWidth (8 * n) := rfl

theorem storeValue_reversed (n : Nat) (v : Word) : storeValue true n v = byteRev n (v.setWidth (8 * n)) := rfl

/-! ### The frames -/

section Frames

variable (s : State) (ea : Word)

theorem onlyGprs_setGpr (r : Reg) (v : Word) : OnlyGprs [r] s (s.setGpr r v).advance :=
  ⟨frame_of (gprKept_setGpr s r v) rfl rfl rfl rfl rfl rfl rfl rfl, rfl, rfl, rfl, rfl⟩

/-- RT, then RA: nothing else but PC is written. -/
theorem onlyGprs_setGpr2 (rt ra : Reg) (v w : Word) : OnlyGprs [rt, ra] s ((s.setGpr rt v).setGpr ra w).advance :=
  ⟨frame_of (gprKept_setGpr2 s rt ra v w) rfl rfl rfl rfl rfl rfl rfl rfl, rfl, rfl, rfl, rfl⟩

/-- A store without update: the bytes at EA, their marks, and PC. -/
theorem stored_store {n : Nat} (v : BitVec (8 * n)) (hn : n ≤ 8) : Stored ea n v [] s (s.store ea n v).advance where
  bytes := memWrite_bytesAt s.mem ea v hn
  others := fun _ => memWrite_read_other s.mem ea v
  marks := mem_markWritten s.written ea n
  gprs := fun _ _ => rfl
  cr := rfl
  xer := ⟨rfl, rfl, rfl⟩
  link := ⟨rfl, rfl⟩
  launch := ⟨rfl, rfl, rfl⟩
  pc := rfl

/-- RA written after a store: only the clause about the general registers changes. -/
theorem stored_store_setGpr {n : Nat} (v : BitVec (8 * n)) (hn : n ≤ 8) (ra : Reg) (w : Word) :
    Stored ea n v [ra] s ((s.store ea n v).setGpr ra w).advance :=
  { stored_store s ea v hn with gprs := gprKept_setGpr (s.store ea n v) ra w }

end Frames

/-! ### The three outcomes of an access (R281, R282, R285) -/

section Outcomes

variable {i : Instr} {s : State} {ea : Option Word} {a v : Word} {n : Nat} {rt rs ra : Reg}

/-- An instruction that ends behind the checks of an access ends there when the access is one the machine makes; a
misaligned access under `fault` stops it, and then one that is not admitted. -/
theorem access_outcomes {kind : AccessKind} {u : State} {P : State → Prop}
    (hi : exec i s = withAccess kind a n s (.next u)) (hu : P u) :
    (Accessible s kind a n → Completes i s P)
      ∧ (a.toNat % n ≠ 0 → s.params.misalignedData = .fault → exec i s = .fault (.misalignedData a n))
      ∧ ((a.toNat % n = 0 ∨ s.params.misalignedData = .allow) → s.admits a n kind = false →
          exec i s = .fault (.stuck a n kind)) :=
  ⟨fun ⟨halign, hadm⟩ => ⟨u, hi.trans (withAccess_ok halign hadm), hu⟩,
    fun hmis hp => hi.trans (withAccess_misaligned hmis hp),
    fun halign hadm => hi.trans (withAccess_stuck halign hadm)⟩

theorem loadsAt_of_load {mode : LoadMode} {value : BitVec (8 * n) → Word} (hi : exec i s = load mode n ea rt s)
    (hea : ea = some a) (hvalue : loadValue mode n s.mem a = value (memRead s.mem a n)) :
    LoadsAt i a n value rt s := by
  refine access_outcomes (hi.trans (withOperand_of_some hea)) ⟨?_, onlyGprs_setGpr ..⟩
  rw [State.advance_readGpr, State.setGpr_readGpr_self, hvalue]

/-- RA, written last, is not RT. -/
theorem loadsUpdateAt_of_loadUpdate {mode : LoadMode} {value : BitVec (8 * n) → Word} (hne : ra ≠ rt)
    (hi : exec i s = loadUpdate mode n ea rt ra s) (hea : ea = some a)
    (hvalue : loadValue mode n s.mem a = value (memRead s.mem a n)) : LoadsUpdateAt i a n value rt ra s := by
  refine access_outcomes (hi.trans (withOperand_of_some hea)) ⟨?rt, State.setGpr_readGpr_self .., onlyGprs_setGpr2 ..⟩
  rw [State.advance_readGpr, State.setGpr_readGpr_ne _ _ _ _ hne.symm, State.setGpr_readGpr_self, hvalue]

theorem storesAt_of_store {reversed : Bool} {w : BitVec (8 * n)} (hn : n ≤ 8)
    (hi : exec i s = store reversed n ea rs s) (hea : ea = some a) (hv : s.readGpr rs = some v)
    (hvalue : storeValue reversed n v = w) : StoresAt i a n w [] (fun _ => True) s := by
  rw [← hvalue]
  exact access_outcomes (hi.trans (withOperands_of_some hea hv)) ⟨stored_store s a _ hn, trivial⟩

/-- The value stored is read before RA is written, so `rs` and `ra` may be one register. -/
theorem storesAt_of_storeUpdate (hn : n ≤ 8) (hi : exec i s = storeUpdate n ea rs ra s) (hea : ea = some a)
    (hv : s.readGpr rs = some v) :
    StoresAt i a n (v.setWidth (8 * n)) [ra] (fun t => t.readGpr ra = some a) s :=
  access_outcomes (hi.trans (withOperands_of_some hea hv))
    ⟨stored_store_setGpr s a _ hn ra a, State.setGpr_readGpr_self ..⟩

end Outcomes

/-! ### The statements -/

/-- Settles O26: each load is one access of its form's address, with its own size and extension. -/
theorem loadsPlain : Obligations.LoadsPlain := by
  refine ⟨?lbz, ?lbzx, ?lhz, ?lhzx, ?lwz, ?lwzx, ?ld, ?ldx, ?lha, ?lhax, ?lwa, ?lwax, ?lhbrx, ?lwbrx⟩
  case lbz | lhz | lwz =>
    intro rt ra d s base hbase
    exact loadsAt_of_load rfl (eaD_of_some hbase) (loadValue_zero ..)
  case ld =>
    intro rt ra ds s base hbase
    exact loadsAt_of_load rfl (eaDS_of_some hbase) (loadValue_zero ..)
  case lbzx | lhzx | lwzx | ldx =>
    intro rt ra rb s base x hbase hx
    exact loadsAt_of_load rfl (eaX_of_some hbase hx) (loadValue_zero ..)
  case lha =>
    intro rt ra d s base hbase
    exact loadsAt_of_load rfl (eaD_of_some hbase) (loadValue_algebraic _ _ (by decide) (by decide))
  case lwa =>
    intro rt ra ds s base hbase
    exact loadsAt_of_load rfl (eaDS_of_some hbase) (loadValue_algebraic _ _ (by decide) (by decide))
  case lhax | lwax =>
    intro rt ra rb s base x hbase hx
    exact loadsAt_of_load rfl (eaX_of_some hbase hx) (loadValue_algebraic _ _ (by decide) (by decide))
  case lhbrx | lwbrx =>
    intro rt ra rb s base x hbase hx
    exact loadsAt_of_load rfl (eaX_of_some hbase hx) (loadValue_reversed ..)

/-- Settles O27: as the loads without update, with RA other than RT (30_encoding.md R130). -/
theorem loadsWithUpdate : Obligations.LoadsWithUpdate := by
  refine ⟨?lbzu, ?lbzux, ?lhzu, ?lhzux, ?lhau, ?lhaux, ?lwzu, ?lwzux, ?lwaux, ?ldu, ?ldux⟩
  case lbzu | lhzu | lwzu =>
    intro rt ra d s base hne hbase
    exact loadsUpdateAt_of_loadUpdate hne rfl (eaDUpdate_of_some hbase) (loadValue_zero ..)
  case ldu =>
    intro rt ra ds s base hne hbase
    exact loadsUpdateAt_of_loadUpdate hne rfl (eaDSUpdate_of_some hbase) (loadValue_zero ..)
  case lbzux | lhzux | lwzux | ldux =>
    intro rt ra rb s base x hne hbase hx
    exact loadsUpdateAt_of_loadUpdate hne rfl (eaXUpdate_of_some hbase hx) (loadValue_zero ..)
  case lhau =>
    intro rt ra d s base hne hbase
    exact loadsUpdateAt_of_loadUpdate hne rfl (eaDUpdate_of_some hbase)
      (loadValue_algebraic _ _ (by decide) (by decide))
  case lhaux | lwaux =>
    intro rt ra rb s base x hne hbase hx
    exact loadsUpdateAt_of_loadUpdate hne rfl (eaXUpdate_of_some hbase hx)
      (loadValue_algebraic _ _ (by decide) (by decide))

/-- Settles O28: each store is one access of its form's address, of the low bytes of RS or their reversal. -/
theorem storesPlain : Obligations.StoresPlain := by
  refine ⟨?stb, ?stbx, ?sth, ?sthx, ?stw, ?stwx, ?std, ?stdx, ?sthbrx, ?stwbrx⟩
  case stb | sth | stw =>
    intro rs ra d s base v hbase hv
    exact storesAt_of_store (by decide) rfl (eaD_of_some hbase) hv (storeValue_plain ..)
  case std =>
    intro rs ra ds s base v hbase hv
    exact storesAt_of_store (by decide) rfl (eaDS_of_some hbase) hv (storeValue_plain ..)
  case stbx | sthx | stwx | stdx =>
    intro rs ra rb s base x v hbase hx hv
    exact storesAt_of_store (by decide) rfl (eaX_of_some hbase hx) hv (storeValue_plain ..)
  case sthbrx | stwbrx =>
    intro rs ra rb s base x v hbase hx hv
    exact storesAt_of_store (by decide) rfl (eaX_of_some hbase hx) hv (storeValue_reversed ..)

/-- Settles O29: the old RS is stored, and RA then gets the address. -/
theorem storesWithUpdate : Obligations.StoresWithUpdate := by
  refine ⟨?stbu, ?stbux, ?sthu, ?sthux, ?stwu, ?stwux, ?stdu, ?stdux⟩
  case stbu | sthu | stwu =>
    intro rs ra d s base v hbase hv
    exact storesAt_of_storeUpdate (by decide) rfl (eaDUpdate_of_some hbase) hv
  case stdu =>
    intro rs ra ds s base v hbase hv
    exact storesAt_of_storeUpdate (by decide) rfl (eaDSUpdate_of_some hbase) hv
  case stbux | sthux | stwux | stdux =>
    intro rs ra rb s base x v hbase hx hv
    exact storesAt_of_storeUpdate (by decide) rfl (eaXUpdate_of_some hbase hx) hv

end Sys2Proof.Machine
end

section
/-! PROOFS. The fixed-point arithmetic instructions with the overflow request off or under `reference`: immediates,
sums, products and divisions (43_arith.md R340, R342, R350 to R378; 10_state.md R46 to R48). -/

namespace Sys2Proof.Machine

open Sys2Proof.Safety Sys2Proof.Config Sys2Proof.Claims

/-! ### The words of the immediates and the products -/

theorem siShifted_eq (si : BitVec 16) : siShifted si = (si ++ 0#16).signExtend 64 :=
  sext_eq_signExtend (si ++ 0#16) (by omega) (by omega)

/-- The low half of a product taken to 128 bits is the product mod 2^64 (R357, R369). -/
theorem extractLsb'_low_ofInt (p : Int) : (BitVec.ofInt 128 p).extractLsb' 0 64 = BitVec.ofInt 64 p := by
  apply BitVec.eq_of_toNat_eq
  rw [BitVec.extractLsb'_toNat, BitVec.toNat_ofInt, BitVec.toNat_ofInt, Nat.shiftRight_zero]
  omega

/-- The high half of an unsigned product (R372, R374). -/
theorem extractLsb'_ofNat_eq_div {w k n : Nat} (p : Nat) (hw : w = k + n) :
    (BitVec.ofNat w p).extractLsb' k n = BitVec.ofNat n (p / 2 ^ k) := by
  apply BitVec.eq_of_toNat_eq
  rw [BitVec.extractLsb'_toNat, BitVec.toNat_ofNat, BitVec.toNat_ofNat, Nat.shiftRight_eq_div_pow, hw, Nat.pow_add,
    Nat.mod_mul_right_div_self, Nat.mod_mod]

/-- The product of two signed words fits the signed doubleword (R370). -/
theorem toInt_ofInt_signedLow_mul (a b : Word) :
    (BitVec.ofInt 64 (signedLow a * signedLow b)).toInt = signedLow a * signedLow b := by
  have hlow : -2 ^ (32 * 2 - 2) ≤ signedLow a * signedLow b := BitVec.le_toInt_mul_toInt
  have hhigh : signedLow a * signedLow b ≤ 2 ^ (32 * 2 - 2) := BitVec.toInt_mul_toInt_le
  exact BitVec.toInt_ofInt_eq_self (by omega) (by omega) (by omega)

/-! ### The ends -/

section Ends

variable {i : Instr} {rt : Reg} {oe rc o : Bool} {s : State}

theorem writesResult_of_finishResult {v res : Word} (hi : exec i s = finishResult rt oe rc o v s) (hres : v = res)
    (h : NoOverflowWrite oe s) : WritesResult i rt rc res s := by
  subst hres
  exact writes_result hi h

theorem fullQuotient_of_finishResult {q : Word} (hi : exec i s = finishResult rt oe rc o q s)
    (h : NoOverflowWrite oe s) :
    Completes i s fun t => FullQuotient q s t rt rc ∧ XerKept s t ∧ Frame [rt] s t := by
  obtain ⟨t, ht, hrt, hcr, hkept⟩ := writes_result hi h
  exact ⟨t, ht, ⟨hrt, hcr⟩, hkept⟩

theorem wordQuotient_of_finishDrawn {q : BitVec 32} (hi : exec i s = finishDrawn rt oe rc o (s.draw 32 ++ q) s.drawn)
    (h : NoOverflowWrite oe s) :
    Completes i s fun t => WordQuotient q s t rt rc ∧ XerKept s t ∧ Frame [rt] s t := by
  obtain ⟨t, ht, hrt, hcr, hkept⟩ := writes_drawn hi h
  exact ⟨t, ht, ⟨hrt, hcr⟩, hkept⟩

/-- A division: a draw where the quotient is undefined (R342), and `defined` elsewhere. -/
theorem divide_of_ite {undefinedQuotient : Prop} {_ : Decidable undefinedQuotient} {r : Result} {defined : State → Prop}
    (hi : exec i s = if undefinedQuotient then finishDrawn rt oe rc o (s.draw 64) s.drawn else r)
    (hr : exec i s = r → Completes i s fun t => defined t ∧ XerKept s t ∧ Frame [rt] s t) (h : NoOverflowWrite oe s) :
    Completes i s fun t =>
      (undefinedQuotient → t.readGpr rt = some (s.draw 64)
          ∧ (if rc then FieldZeroDrawn (s.drawn.draw 3) s.so s t else t.cr = s.cr))
        ∧ (¬ undefinedQuotient → defined t) ∧ XerKept s t ∧ Frame [rt] s t := by
  by_cases hu : undefinedQuotient
  · obtain ⟨t, ht, hrt, hcr, hkept⟩ := writes_drawn (hi.trans (if_pos hu)) h
    exact ⟨t, ht, fun _ => ⟨hrt, hcr⟩, fun hd => absurd hu hd, hkept⟩
  · obtain ⟨t, ht, hdefined, hkept⟩ := hr (hi.trans (if_neg hu))
    exact ⟨t, ht, fun hd => absurd hd hu, fun _ => hdefined, hkept⟩

end Ends

/-! ### The statements -/

/-- Settles O36: each instruction ends in one write of RT. -/
theorem immediateArithmetic : Obligations.ImmediateArithmetic := by
  intro rt ra si s
  rw [← sext16_eq, ← siShifted_eq]
  refine ⟨fun a ha => ⟨only_gprs (withOperand_of_some ha), only_gprs (withOperand_of_some ha)⟩, only_gprs rfl,
    only_gprs rfl, fun a ha => ?mulli⟩
  case mulli =>
    rw [extractLsb'_low_ofInt, ← sext_toInt]
    exact only_gprs (withOperand_of_some ha)

/-- Settles O37: the three results are sums x + y + c. -/
theorem addSubtractNegate : Obligations.AddSubtractNegate := by
  refine ⟨?add, ?subf, ?neg⟩
  case add =>
    intro rt ra rb oe rc s a b ha hb
    exact writesResult_of_finishResult (withOperands_of_some ha hb) (add_carry_false a b)
  case subf =>
    intro rt ra rb oe rc s a b ha hb
    exact writesResult_of_finishResult (withOperands_of_some ha hb) (not_add_add_one a b)
  case neg =>
    intro rt ra oe rc s a ha
    exact writesResult_of_finishResult (withOperand_of_some ha) (not_add_zero_add_one a)

/-- Settles O42: the products by integers, the word forms through the signed and unsigned low words. -/
theorem multiplies : Obligations.Multiplies := by
  refine ⟨?mulld, ?mullw, toInt_ofInt_signedLow_mul, ?mulhd, ?mulhdu, ?mulhw, ?mulhwu⟩
  case mulld =>
    intro rt ra rb oe rc s a b ha hb
    exact writesResult_of_finishResult (withOperands_of_some ha hb) (extractLsb'_low_ofInt _).symm
  case mullw =>
    intro rt ra rb oe rc s a b ha hb
    simp only [signedLow_eq]
    exact writesResult_of_finishResult (withOperands_of_some ha hb) rfl
  case mulhd =>
    intro rt ra rb rc s a b ha hb
    exact writesResult_of_finishResult (withOperands_of_some ha hb) rfl (.inl rfl)
  case mulhdu =>
    intro rt ra rb rc s a b ha hb
    exact writesResult_of_finishResult (withOperands_of_some ha hb) (extractLsb'_ofNat_eq_div _ rfl) (.inl rfl)
  case mulhw =>
    intro rt ra rb rc s a b ha hb
    simp only [signedLow_eq]
    exact writes_drawn (withOperands_of_some ha hb) (.inl rfl)
  case mulhwu =>
    intro rt ra rb rc s a b ha hb
    simp only [unsignedLow_eq]
    rw [← extractLsb'_ofNat_eq_div (w := 64) _ rfl]
    exact writes_drawn (withOperands_of_some ha hb) (.inl rfl)

/-- Settles O43: each division is a draw where its quotient is undefined, and the quotient elsewhere. -/
theorem divisions : Obligations.Divisions := by
  refine ⟨?divd, ?divdu, ?divw, ?divwu⟩
  case divd | divdu =>
    intro rt ra rb oe rc s a b ha hb h
    exact divide_of_ite (withOperands_of_some ha hb) (fun hr => fullQuotient_of_finishResult hr h) h
  case divw =>
    intro rt ra rb oe rc s a b ha hb h
    simp only [signedLow_eq]
    exact divide_of_ite (withOperands_of_some ha hb) (fun hr => wordQuotient_of_finishDrawn hr h) h
  case divwu =>
    intro rt ra rb oe rc s a b ha hb h
    simp only [unsignedLow_eq]
    exact divide_of_ite (withOperands_of_some ha hb) (fun hr => wordQuotient_of_finishDrawn hr h) h

end Sys2Proof.Machine
end

section
/-! PROOFS. The ends of the arithmetic instructions under `architectural` (43_arith.md R341, R342; assumption log 14). -/

namespace Sys2Proof.Machine

open Sys2Proof.Safety Sys2Proof.Config Sys2Proof.Claims

/-! ### The exact sums -/

theorem carryOut_iff (x y : Word) (c : Bool) :
    carryOut x y c = true ↔ 2 ^ 64 ≤ x.toNat + y.toNat + (if c then 1 else 0) := by
  rw [carryOut, decide_eq_true_iff]
  cases c <;> rfl

theorem outsideSigned_iff (n : Nat) (e : Int) :
    outsideSigned n e = true ↔ e < -(2 ^ (n - 1)) ∨ 2 ^ (n - 1) ≤ e := by
  rw [outsideSigned, decide_eq_true_iff]

theorem sumOverflow_iff (x y : Word) (c : Bool) :
    sumOverflow x y c = true ↔ x.toInt + y.toInt + (if c then 1 else 0) < -(2 ^ 63)
      ∨ 2 ^ 63 ≤ x.toInt + y.toInt + (if c then 1 else 0) := by
  rw [sumOverflow, outsideSigned_iff]
  cases c <;> rfl

theorem carryWord_eq (c : Bool) : (BitVec.ofBool c).setWidth 64 = if c then 1#64 else 0#64 := by
  cases c <;> rfl

/-- A sum of words is its exact signed sum mod 2^64. -/
theorem add_carry_eq_ofInt (x y : Word) (c : Bool) :
    x + y + (BitVec.ofBool c).setWidth 64 = BitVec.ofInt 64 (x.toInt + y.toInt + c.toNat) := by
  rw [BitVec.ofInt_add, BitVec.ofInt_add, BitVec.ofInt_toInt, BitVec.ofInt_toInt]
  cases c <;> rfl

/-- The complement of a word, exactly (R356, R363). -/
theorem toInt_not_eq (x : Word) : (~~~x).toInt = -x.toInt - 1 := by
  rw [BitVec.toInt_eq_toNat_cond, BitVec.toInt_eq_toNat_cond, BitVec.toNat_not]
  have hx := x.isLt
  split <;> split <;> omega

/-! ### The requests -/

section Requests

variable {u : State}

theorem writeCarry_architectural_ca (c : Bool) (hp : u.params.caOvMode = .architectural) : (u.writeCarry c).ca = c := by
  rw [State.writeCarry_architectural u c hp]

theorem writeOverflow_architectural_ov (o : Bool) (hp : u.params.caOvMode = .architectural) :
    (u.writeOverflow true o).ov = o := by
  rw [State.writeOverflow_architectural u o hp]

theorem writeOverflow_architectural_so (o : Bool) (hp : u.params.caOvMode = .architectural) :
    (u.writeOverflow true o).so = (u.so || o) := by
  rw [State.writeOverflow_architectural u o hp]

theorem writeOverflow_architectural_draw (o : Bool) (n : Nat) (hp : u.params.caOvMode = .architectural) :
    (u.writeOverflow true o).draw n = u.draw n := by
  rw [State.writeOverflow_architectural u o hp]
  rfl

end Requests

/-! ### The ends -/

section Ends

variable {i : Instr} {rt : Reg} {oe rc o c : Bool} {x y res : Word} {s : State}

theorem finishResult_architectural (hi : exec i s = finishResult rt true rc o res s)
    (hp : s.params.caOvMode = .architectural) :
    Completes i s fun t => t.readGpr rt = some res ∧ RecordedAfter rc res s t ∧ t.ov = o
      ∧ t.so = (s.so || t.ov) ∧ t.ca = s.ca ∧ Frame [rt] s t := by
  refine ⟨_, hi, by simp, recordIf_recordedAfter rc res (by simp), ?ov, ?so, by simp, frame_result ..⟩
  case ov => simp [writeOverflow_architectural_ov, hp]
  case so => simp [writeOverflow_architectural_ov, writeOverflow_architectural_so, hp]

theorem finishDrawn_architectural (hi : exec i s = finishDrawn rt true rc o res s.drawn)
    (hp : s.params.caOvMode = .architectural) :
    Completes i s fun t => t.readGpr rt = some res ∧ DrawnAfter rc (s.drawn.draw 3) s t ∧ t.ov = o
      ∧ t.so = (s.so || t.ov) ∧ t.ca = s.ca ∧ Frame [rt] s t := by
  refine ⟨_, hi, by simp, recordDrawnIf_drawnAfter rc (by simp) (writeOverflow_architectural_draw o 3 hp), ?ov, ?so,
    by simp, frame_drawnResult ..⟩
  case ov => simp [writeOverflow_architectural_ov, hp]
  case so => simp [writeOverflow_architectural_ov, writeOverflow_architectural_so, hp]

/-- A CA-producing sum: CA is the carry out, the overflow request follows OE, and CR0 takes SO as left (log 14). -/
theorem architecturalSum_of_addCarrying (hi : exec i s = addCarrying rt oe rc x y c s) :
    ArchitecturalSum i rt oe rc x y c s := by
  intro hp
  rw [← carryWord_eq]
  refine ⟨_, hi, by simp, ?cr, ?ca, ?overflow, ?noOverflow, frame_carrySum ..⟩
  case cr =>
    rw [State.recordCarryIf_architectural _ _ _ (by simpa using hp)]
    exact recordIf_recordedAfter rc _ (by simp)
  case ca =>
    rw [← carryOut_iff]
    simp [writeCarry_architectural_ca, hp]
  case overflow =>
    rintro rfl
    rw [← sumOverflow_iff]
    simp [writeOverflow_architectural_ov, writeOverflow_architectural_so, hp]
  case noOverflow =>
    rintro rfl
    simp

theorem architecturalOverflow_of_finishResult {n : Nat} {e : Int}
    (hi : exec i s = finishResult rt true rc (outsideSigned n e) (BitVec.ofInt 64 e) s) :
    ArchitecturalOverflow i rt rc n e s := by
  intro hp
  obtain ⟨t, ht, hrt, hcr, hov, hkept⟩ := finishResult_architectural hi hp
  exact ⟨t, ht, hrt, hcr, by rw [hov, outsideSigned_iff], hkept⟩

/-- A sum x + y + c whose exact value is `e`. -/
theorem architecturalOverflow_of_addPlain {e : Int} (hi : exec i s = addPlain rt true rc x y c s)
    (he : x.toInt + y.toInt + c.toNat = e) : ArchitecturalOverflow i rt rc 64 e s := by
  subst he
  rw [addPlain, add_carry_eq_ofInt] at hi
  exact architecturalOverflow_of_finishResult hi

theorem fullQuotientAfter_of_finishResult {q : Word} (hi : exec i s = finishResult rt true rc o q s)
    (hp : s.params.caOvMode = .architectural) :
    Completes i s fun t => FullQuotientAfter rt rc q s t ∧ t.ov = o ∧ t.so = (s.so || t.ov) ∧ t.ca = s.ca
      ∧ Frame [rt] s t := by
  obtain ⟨t, ht, hrt, hcr, hkept⟩ := finishResult_architectural hi hp
  exact ⟨t, ht, ⟨hrt, hcr⟩, hkept⟩

theorem wordQuotientAfter_of_finishDrawn {q : BitVec 32}
    (hi : exec i s = finishDrawn rt true rc o (s.draw 32 ++ q) s.drawn) (hp : s.params.caOvMode = .architectural) :
    Completes i s fun t => WordQuotientAfter rt rc q (s.drawn.draw 3) s t ∧ t.ov = o ∧ t.so = (s.so || t.ov)
      ∧ t.ca = s.ca ∧ Frame [rt] s t := by
  obtain ⟨t, ht, hrt, hcr, hkept⟩ := finishDrawn_architectural hi hp
  exact ⟨t, ht, ⟨hrt, hcr⟩, hkept⟩

/-- A division: OV says whether the quotient is undefined; it is a draw there and `defined` elsewhere. -/
theorem architecturalDivide_of_ite {undefinedQuotient : Prop} {_ : Decidable undefinedQuotient} {r : Result}
    {defined : State → Prop}
    (hi : exec i s = if undefinedQuotient then finishDrawn rt true rc true (s.draw 64) s.drawn else r)
    (hr : exec i s = r → s.params.caOvMode = .architectural →
      Completes i s fun t => defined t ∧ t.ov = false ∧ t.so = (s.so || t.ov) ∧ t.ca = s.ca ∧ Frame [rt] s t) :
    ArchitecturalDivide i rt rc undefinedQuotient defined s := by
  intro hp
  by_cases hu : undefinedQuotient
  · obtain ⟨t, ht, hrt, hcr, hov, hkept⟩ := finishDrawn_architectural (hi.trans (if_pos hu)) hp
    exact ⟨t, ht, ⟨fun _ => ⟨hrt, hcr⟩, fun hd => absurd hu hd⟩, iff_of_true hov hu, hkept⟩
  · obtain ⟨t, ht, hdefined, hov, hkept⟩ := hr (hi.trans (if_neg hu)) hp
    exact ⟨t, ht, ⟨fun hd => absurd hd hu, fun _ => hdefined⟩, iff_of_false (by simp [hov]) hu, hkept⟩

end Ends

/-! ### The statements -/

/-- Settles O39: each instruction is one sum of the carry family. -/
theorem architecturalCarry : Obligations.ArchitecturalCarry := by
  intro rt ra rb oe rc si s a b ha hb
  rw [← sext16_eq]
  refine ⟨?addc, ?adde, ?addme, ?addze, ?subfc, ?subfe, ?subfme, ?subfze, ?addic, ?addicRc, ?subfic⟩
  case addc | adde | subfc | subfe => exact architecturalSum_of_addCarrying (withOperands_of_some ha hb)
  case addme | addze | subfme | subfze | addic | addicRc | subfic =>
    exact architecturalSum_of_addCarrying (withOperand_of_some ha)

/-- Settles O40: sums and products by their exact signed value, divisions by whether the quotient is defined. -/
theorem architecturalOverflowBits : Obligations.ArchitecturalOverflowBits := by
  intro rt ra rb rc s a b ha hb
  simp only [NoWordQuotient, signedLow_eq, unsignedLow_eq]
  refine ⟨?add, ?subf, ?neg, ?mulld, ?mullw, ?divd, ?divdu, ?divw, ?divwu⟩
  case add => exact architecturalOverflow_of_addPlain (withOperands_of_some ha hb) (Int.add_zero _)
  case subf =>
    have hdifference : (~~~a).toInt + b.toInt + true.toNat = b.toInt - a.toInt := by
      rw [toInt_not_eq, Bool.toNat_true]
      omega
    exact architecturalOverflow_of_addPlain (withOperands_of_some ha hb) hdifference
  case neg =>
    have hnegation : (~~~a).toInt + (0#64).toInt + true.toNat = -a.toInt := by
      rw [toInt_not_eq, Bool.toNat_true, BitVec.toInt_zero]
      omega
    exact architecturalOverflow_of_addPlain (withOperand_of_some ha) hnegation
  case mulld | mullw => exact architecturalOverflow_of_finishResult (withOperands_of_some ha hb)
  case divd | divdu =>
    exact architecturalDivide_of_ite (withOperands_of_some ha hb) fullQuotientAfter_of_finishResult
  case divw | divwu =>
    exact architecturalDivide_of_ite (withOperands_of_some ha hb) wordQuotientAfter_of_finishDrawn

end Sys2Proof.Machine
end

section
/-! PROOFS. The logical, extend and count instructions (44_compare_logical.md R405 to R426): the record-form end they
share, the words of their immediates, and the number of leading zeros by bit positions. -/

namespace Sys2Proof.Machine

open Sys2Proof.Safety Sys2Proof.Config Sys2Proof.Claims

/-! ### The words of the immediates and the fields -/

theorem zext_eq_append (ui : BitVec 16) : zext ui = 0#48 ++ ui := BitVec.setWidth_eq_append (by omega)

theorem uiShifted_eq_append (ui : BitVec 16) : uiShifted ui = 0#32 ++ ui ++ 0#16 := by
  rw [BitVec.append_assoc, uiShifted, zext, BitVec.setWidth_eq_append (by omega)]

theorem sext_lowField {n : Nat} (a : Word) (hpos : 0 < n) (hn : n ≤ 64) :
    sext (a.setWidth n) = BitVec.signExtend 64 (a.extractLsb' 0 n) := by
  rw [sext_eq_signExtend _ hpos hn, BitVec.setWidth_eq_extractLsb' hn]

theorem getLsbD_lowWord (a : Word) {j : Nat} (hj : j < 32) : (lowWord a).getLsbD j = a.getLsbD j := by
  rw [lowWord, BitVec.getLsbD_setWidth, decide_eq_true hj, Bool.true_and]

/-! ### Leading zeros -/

section LeadingZeros

variable {w : Nat} (v : BitVec w)

theorem countLeadingZeros_of_ne_zero (h : v.toNat ≠ 0) :
    v.toNat.log2 < w ∧ countLeadingZeros v = w - 1 - v.toNat.log2 :=
  ⟨(Nat.log2_lt h).2 v.isLt, if_neg h⟩

theorem countLeadingZeros_le : countLeadingZeros v ≤ w := by
  by_cases h : v.toNat = 0
  · rw [countLeadingZeros, if_pos h]
  · obtain ⟨-, hcount⟩ := countLeadingZeros_of_ne_zero v h
    omega

/-- The bits counted lie above the highest 1. -/
theorem getLsbD_of_lt_countLeadingZeros {k : Nat} (hk : k < countLeadingZeros v) : v.getLsbD (w - 1 - k) = false := by
  by_cases h : v.toNat = 0
  · rw [BitVec.getLsbD, h, Nat.zero_testBit]
  · obtain ⟨-, hcount⟩ := countLeadingZeros_of_ne_zero v h
    have habove : v.toNat.log2 < w - 1 - k := by omega
    exact Nat.testBit_lt_two_pow ((Nat.log2_lt h).1 habove)

/-- The first bit not counted is the highest 1. -/
theorem getLsbD_countLeadingZeros (hlt : countLeadingZeros v < w) :
    v.getLsbD (w - 1 - countLeadingZeros v) = true := by
  have h : v.toNat ≠ 0 := fun h => by
    rw [countLeadingZeros, if_pos h] at hlt
    omega
  obtain ⟨hlog, hcount⟩ := countLeadingZeros_of_ne_zero v h
  have hhighest : w - 1 - countLeadingZeros v = v.toNat.log2 := by omega
  rw [hhighest]
  exact Nat.testBit_log2 h

end LeadingZeros

/-! ### The ends -/

section Ends

variable {i : Instr} {rs ra rb : Reg} {rc : Bool} {s : State} {a b : Word}

theorem writesResult_of_logical1 {f : Word → Word} (hi : exec i s = logical1 f rs ra rc s)
    (ha : s.readGpr rs = some a) : WritesResult i ra rc (f a) s :=
  writes_result_plain (hi.trans (withOperand_of_some ha))

theorem writesResult_of_logical2 {f : Word → Word → Word} (hi : exec i s = logical2 f rs ra rb rc s)
    (ha : s.readGpr rs = some a) (hb : s.readGpr rb = some b) : WritesResult i ra rc (f a b) s :=
  writes_result_plain (hi.trans (withOperands_of_some ha hb))

end Ends

/-! ### The instructions -/

theorem logical1_of_exec {mk : Reg → Reg → Bool → Instr} {f : Word → Word}
    (hi : ∀ rs ra rc s, exec (mk rs ra rc) s = logical1 f rs ra rc s) : Logical1 mk f :=
  fun rs ra rc s _ => writesResult_of_logical1 (hi rs ra rc s)

theorem extend_of_exec {mk : Reg → Reg → Bool → Instr} {n : Nat} (hpos : 0 < n) (hn : n ≤ 64)
    (hi : ∀ rs ra rc s, exec (mk rs ra rc) s = logical1 (fun a => sext (a.setWidth n)) rs ra rc s) :
    Logical1 mk (fun a => BitVec.signExtend 64 (a.extractLsb' 0 n)) := by
  simp only [← sext_lowField _ hpos hn]
  exact logical1_of_exec hi

theorem logical2_of_exec {mk : Reg → Reg → Reg → Bool → Instr} {f : Word → Word → Word}
    (hi : ∀ rs ra rb rc s, exec (mk rs ra rb rc) s = logical2 f rs ra rb rc s) : Logical2 mk f :=
  fun rs ra rb rc s _ _ => writesResult_of_logical2 (hi rs ra rb rc s)

theorem logicalImmediate_of_exec {mk : Reg → Reg → BitVec 16 → Instr} {rc : Bool} {f : Word → BitVec 16 → Word}
    (hi : ∀ rs ra ui s, exec (mk rs ra ui) s = logical1 (fun a => f a ui) rs ra rc s) : LogicalImmediate mk rc f :=
  fun rs ra ui s _ => writesResult_of_logical1 (hi rs ra ui s)

theorem logical1_cntlzw : Logical1 .cntlzw fun a => BitVec.ofNat 64 (countLeadingZeros (lowWord a)) :=
  logical1_of_exec fun _ _ _ _ => rfl

theorem logical1_cntlzd : Logical1 .cntlzd fun a => BitVec.ofNat 64 (countLeadingZeros a) :=
  logical1_of_exec fun _ _ _ _ => rfl

/-! ### The statements -/

/-- Settles O45: each immediate is the UI operand of R118, zero-extended or shifted. -/
theorem logicalImmediates : Obligations.LogicalImmediates := by
  unfold Obligations.LogicalImmediates
  simp only [← zext_eq_append, ← uiShifted_eq_append]
  refine ⟨?nop, ?andiRc, ?andisRc, ?ori, ?oris, ?xori, ?xoris⟩
  case nop => exact fun _ => rfl
  case andiRc | andisRc | ori | oris | xori | xoris => exact logicalImmediate_of_exec fun _ _ _ _ => rfl

/-- Settles O46: each register form is one logical operation of its sources. -/
theorem logicalRegisters : Obligations.LogicalRegisters := by
  refine ⟨?and, ?andc, ?or, ?orc, ?xor, ?nand, ?nor, ?eqv, ?mr⟩
  case and | andc | or | orc | xor | nand | nor | eqv => exact logical2_of_exec fun _ _ _ _ _ => rfl
  case mr => exact logical1_of_exec fun _ _ _ _ => rfl

/-- Settles O47: the extensions take the low field, and the number n of the counts is `countLeadingZeros`. -/
theorem extendAndCount : Obligations.ExtendAndCount := by
  refine ⟨?extsb, ?extsh, ?extsw, fun rs ra rc s a ha => ⟨?cntlzw, ?cntlzd⟩⟩
  case extsb | extsh | extsw => exact extend_of_exec (by omega) (by omega) fun _ _ _ _ => rfl
  case cntlzw =>
    refine ⟨countLeadingZeros (lowWord a), countLeadingZeros_le _, fun k hk => ?zeros, fun hlt => ?one,
      logical1_cntlzw rs ra rc s a ha⟩
    case zeros =>
      rw [← getLsbD_lowWord a (by omega)]
      exact getLsbD_of_lt_countLeadingZeros _ hk
    case one =>
      rw [← getLsbD_lowWord a (by omega)]
      exact getLsbD_countLeadingZeros _ hlt
  case cntlzd =>
    exact ⟨countLeadingZeros a, countLeadingZeros_le a, fun _ => getLsbD_of_lt_countLeadingZeros a,
      getLsbD_countLeadingZeros a, logical1_cntlzd rs ra rc s a ha⟩

end Sys2Proof.Machine
end

section
/-! PROOFS. The rotate and shift instructions (45_rotate_shift.md R450 to R467): the two ends they share, the amount of
rldcr, and CA of the algebraic shifts by the bits shifted out. -/

namespace Sys2Proof.Machine

open Sys2Proof.Safety Sys2Proof.Config Sys2Proof.Claims

/-! ### The amounts and the results -/

/-- The amount of rlwnm, `RB[4:0]` (R452). -/
theorem toNat_extractLsb'_five (b : Word) : (b.extractLsb' 0 5).toNat = b.toNat % 32 := by
  rw [BitVec.extractLsb'_toNat, Nat.shiftRight_zero]

theorem rldcrShift_field6 (rb : Reg) {s : State} (h : s.params.rldcrShift = .field6) :
    rldcrShift rb s = some (32 + rb.toNat) := by
  have hsplit : ∀ r : Reg, (1#1 ++ r).toNat = 32 + r.toNat := by decide
  rw [rldcrShift, h, ← hsplit]

theorem rldcrShift_field5 (rb : Reg) {s : State} (h : s.params.rldcrShift = .field5) :
    rldcrShift rb s = some rb.toNat := by
  rw [rldcrShift, h]

theorem rldcrShift_register {rb : Reg} {s : State} {b : Word} (h : s.params.rldcrShift = .register)
    (hb : s.readGpr rb = some b) : rldcrShift rb s = some (b.toNat % 64) := by
  rw [rldcrShift, h, ← shift6_eq]
  simp only [hb, Option.map_some]

theorem zext_word_eq_append (v : BitVec 32) : zext v = 0#32 ++ v := BitVec.setWidth_eq_append (by omega)

/-- A word shift, zero-extended: 0 for a long amount (R460, R461). -/
theorem zext_ite_zero (p : Prop) [Decidable p] (v : BitVec 32) :
    zext (if p then v else 0#32) = if p then 0#32 ++ v else 0#64 := by
  rw [apply_ite zext, zext_word_eq_append]
  rfl

/-! ### The algebraic shifts: exact value and CA -/

theorem mod_two_pow_ne_zero_iff (m n : Nat) : m % 2 ^ n ≠ 0 ↔ ∃ k, k < n ∧ m.testBit k = true := by
  have hbit (k : Nat) : (m % 2 ^ n).testBit k = true ↔ k < n ∧ m.testBit k = true := by
    rw [Nat.testBit_mod_two_pow, Bool.and_eq_true, decide_eq_true_iff]
  refine ⟨fun h => ?_, fun ⟨k, hk⟩ h => ?_⟩
  · obtain ⟨k, hk⟩ := Nat.exists_testBit_of_ne_zero h
    exact ⟨k, (hbit k).1 hk⟩
  · have hset := (hbit k).2 hk
    rw [h, Nat.zero_testBit] at hset
    exact Bool.false_ne_true hset

/-- CA under `architectural` (R450): a negative source and a 1 bit among those shifted out. -/
theorem shiftCarry_iff {w : Nat} (v : BitVec w) (n : Nat) :
    shiftCarry v.msb v.toNat n = true ↔ v.toInt < 0 ∧ ∃ k, k < n ∧ v.getLsbD k = true := by
  rw [shiftCarry, Bool.and_eq_true, decide_eq_true_iff, mod_two_pow_ne_zero_iff, BitVec.msb_eq_toInt,
    decide_eq_true_iff]
  rfl

theorem getLsbD_lowWord_iff (a : Word) (k : Nat) : (lowWord a).getLsbD k = true ↔ k < 32 ∧ a.getLsbD k = true := by
  rw [lowWord, BitVec.getLsbD_setWidth, Bool.and_eq_true, decide_eq_true_iff]

theorem shiftCarry_lowWord_iff (a : Word) (n : Nat) :
    shiftCarry (lowWord a).msb (lowWord a).toNat n = true
      ↔ signedLow a < 0 ∧ ∃ k, k < n ∧ k < 32 ∧ a.getLsbD k = true := by
  simp only [shiftCarry_iff, signedLow_eq, getLsbD_lowWord_iff]

/-- An amount inside the word loses bits of the low word alone (R463). -/
theorem shiftCarry_lowWord_iff_of_le (a : Word) {n : Nat} (hn : n ≤ 32) :
    shiftCarry (lowWord a).msb (lowWord a).toNat n = true
      ↔ signedLow a < 0 ∧ ∃ k, k < n ∧ a.getLsbD k = true := by
  have hinside (k : Nat) : (k < n ∧ k < 32 ∧ a.getLsbD k = true) ↔ k < n ∧ a.getLsbD k = true :=
    and_congr_right fun hk => and_iff_right (by omega)
  simp only [shiftCarry_lowWord_iff, hinside]

/-- The low word shifted right with its sign, exactly (R462, R463). -/
theorem toInt_sshiftRight_lowField (a : Word) (n : Nat) :
    ((BitVec.signExtend 64 (a.extractLsb' 0 32)).sshiftRight n).toInt = signedLow a >>> n := by
  rw [BitVec.toInt_sshiftRight, BitVec.toInt_signExtend_of_le (by omega), signedLow]

theorem sext_lowWord (a : Word) : sext (lowWord a) = BitVec.signExtend 64 (a.extractLsb' 0 32) :=
  sext_lowField a (by omega) (by omega)

/-! ### The ends -/

section Ends

variable {i : Instr} {ra : Reg} {rc c : Bool} {v res : Word} {s : State}

theorem writesResult_of_finishRotate (hi : exec i s = finishRotate ra rc v s) (hres : v = res) :
    WritesResult i ra rc res s := by
  subst hres
  exact writes_result_plain hi

/-- The end of an algebraic shift: CA alone follows the mode (R450). -/
theorem shiftsAlgebraic_of_finishAlgebraic {e : Int} {n : Nat} {lost : Prop}
    (hi : exec i s = finishAlgebraic ra rc c res s) (hres : res.toInt = e >>> n) (hc : c = true ↔ e < 0 ∧ lost) :
    ShiftsAlgebraic i ra rc e n lost s := by
  intro hmode
  have hso : ((s.setGpr ra res).writeCarry c).so = s.so := by simp
  refine ⟨_, hi, res, by simp, hres, recordIf_recorded s _ rc res (by simp) hso, frame_algebraic .., by simp, by simp,
    fun hp => ?reference, fun hp => ?architectural⟩
  case reference => simp [State.writeCarry_reference (s.setGpr ra res) c hp]
  case architectural =>
    rw [← hc]
    simp [writeCarry_architectural_ca, hp]

end Ends

/-! ### The instructions -/

theorem rotate1_of_exec {mk : Reg → Reg → Bool → Instr} {f : Word → Word}
    (hi : ∀ rs ra rc s, exec (mk rs ra rc) s = withOperand (s.readGpr rs) fun a => finishRotate ra rc (f a) s) :
    Rotate1 mk f :=
  fun rs ra rc s _ ha => writesResult_of_finishRotate ((hi rs ra rc s).trans (withOperand_of_some ha)) rfl

theorem rotate2_of_exec {mk : Reg → Reg → Reg → Bool → Instr} {second : Reg → Reg → Reg} {f : Word → Word → Word}
    (hi : ∀ rs ra rb rc s, exec (mk rs ra rb rc) s
      = withOperand (s.readGpr rs) fun a => withOperand (s.readGpr (second ra rb)) fun b =>
          finishRotate ra rc (f a b) s) :
    Rotate2 mk second f :=
  fun rs ra rb rc s _ _ ha hb =>
    writesResult_of_finishRotate ((hi rs ra rb rc s).trans (withOperands_of_some ha hb)) rfl

/-! ### The statements -/

/-- Settles O48: each word rotate ends in one write of RA. -/
theorem wordRotates : Obligations.WordRotates := by
  intro sh mb me
  refine ⟨?rlwinm, ?rlwnm, ?rlwimi⟩
  case rlwinm => exact rotate1_of_exec fun _ _ _ _ => rfl
  case rlwnm =>
    simp only [← toNat_extractLsb'_five]
    exact rotate2_of_exec fun _ _ _ _ _ => rfl
  case rlwimi => exact rotate2_of_exec fun _ _ _ _ _ => rfl

/-- Settles O49: each doubleword rotate ends in one write of RA. -/
theorem doublewordRotates : Obligations.DoublewordRotates := by
  intro sh mbe
  refine ⟨?rldicl, ?rldicr, ?rldic, ?rldimi, ?rldcl⟩
  case rldicl | rldicr | rldic => exact rotate1_of_exec fun _ _ _ _ => rfl
  case rldimi => exact rotate2_of_exec fun _ _ _ _ _ => rfl
  case rldcl =>
    simp only [← shift6_eq]
    exact rotate2_of_exec fun _ _ _ _ _ => rfl

/-- Settles O50: the three amounts of rldcr; GPR[RB] is read for the last alone. -/
theorem rldcrShiftAmount : Obligations.RldcrShiftAmount := by
  intro rs ra rb me rc s a ha
  have rotates {n : Nat} (hn : rldcrShift rb s = some n) :
      WritesResult (.rldcr rs ra rb me rc) ra rc (rotl64 a n &&& rotateMask 0 me.toNat) s :=
    writesResult_of_finishRotate (withOperands_of_some ha hn) rfl
  exact ⟨fun h => rotates (rldcrShift_field6 rb h), fun h => rotates (rldcrShift_field5 rb h),
    fun _ h hb => rotates (rldcrShift_register h hb)⟩

/-- Settles O51: each shift is one operation of RS and its amount, 0 for a long amount. -/
theorem logicalShifts : Obligations.LogicalShifts := by
  unfold Obligations.LogicalShifts
  simp only [← zext_ite_zero, ← lowWord_eq, ← shift6_eq, ← shift7_eq]
  refine ⟨?slw, ?srw, ?sld, ?srd⟩
  case slw | srw | sld | srd => exact logical2_of_exec fun _ _ _ _ _ => rfl

/-- Settles O52: the value of each shift is exact for every amount, and CA by the bits shifted out. -/
theorem algebraicShifts : Obligations.AlgebraicShifts := by
  intro rs ra rb rc s a b ha
  refine ⟨fun hb => ⟨?sraw, ?srad⟩, fun sh => ?srawi, fun sh => ?sradi⟩
  case sraw =>
    rw [← shift6_eq]
    refine shiftsAlgebraic_of_finishAlgebraic (withOperands_of_some ha hb) ?_ (shiftCarry_lowWord_iff a _)
    rw [sraw_result, toInt_sshiftRight_lowField]
  case srad =>
    rw [← shift7_eq]
    refine shiftsAlgebraic_of_finishAlgebraic (withOperands_of_some ha hb) ?_ (shiftCarry_iff a _)
    rw [srad_result, BitVec.toInt_sshiftRight]
  case srawi =>
    refine shiftsAlgebraic_of_finishAlgebraic (withOperand_of_some ha) ?_
      (shiftCarry_lowWord_iff_of_le a sh.isLt.le)
    rw [sext_lowWord, toInt_sshiftRight_lowField]
  case sradi =>
    exact shiftsAlgebraic_of_finishAlgebraic (withOperand_of_some ha) BitVec.toInt_sshiftRight (shiftCarry_iff a _)

end Sys2Proof.Machine
end

section
/-! PROOFS. The special-register moves, the intrinsics, the traps and the words that end a run (46_system.md R500 to
R545). -/

namespace Sys2Proof.Machine

open Sys2Proof.Safety Sys2Proof.Claims

/-! ### The value of XER (R501) -/

theorem ofBool_shiftLeft_getLsbD (b : Bool) (k : Nat) {j : Nat} (hj : j < 64) :
    ((BitVec.ofBool b).setWidth 64 <<< k).getLsbD j = (decide (j = k) && b) := by
  have hsub : j - k < 64 := by omega
  have hbit : decide (j = k) = (!decide (j < k) && decide (j - k = 0)) := by grind
  rw [BitVec.getLsbD_shiftLeft, BitVec.getLsbD_setWidth, BitVec.getLsbD_ofBool, hbit]
  simp [hj, hsub, Bool.and_assoc]

/-- The mask of the three bits that XER defines. -/
theorem xerMask_eq : (0xE0000000#64 : Word) = ((BitVec.ofBool true).setWidth 64 <<< 31)
    ||| ((BitVec.ofBool true).setWidth 64 <<< 30) ||| ((BitVec.ofBool true).setWidth 64 <<< 29) := by decide

/-- Each bit of XER is one of SO, OV and CA, or the draw's. -/
theorem xerValue_getLsbD (s : State) {j : Nat} (hj : j < 64) : s.xerValue.getLsbD j
    = if j = 31 then s.so else if j = 30 then s.ov else if j = 29 then s.ca else (s.draw 64).getLsbD j := by
  rw [State.xerValue, xerMask_eq]
  simp only [BitVec.getLsbD_or, BitVec.getLsbD_and, BitVec.getLsbD_not, ofBool_shiftLeft_getLsbD _ _ hj, hj]
  split_ifs with hso hov hca <;> simp [*]

theorem xerValue_getLsbD_drawn (s : State) {j : Nat} (hj : j < 29 ∨ 31 < j) :
    s.xerValue.getLsbD j = (s.draw 64).getLsbD j := by
  by_cases hlt : j < 64
  · rw [xerValue_getLsbD s hlt, if_neg (by omega), if_neg (by omega), if_neg (by omega)]
  · rw [BitVec.getLsbD_of_ge _ _ (by omega), BitVec.getLsbD_of_ge _ _ (by omega)]

/-! ### The special-register moves (R502, R503, R529) -/

section Moves

variable {rt rs : Reg} {n : BitVec 10} {s : State}

theorem readSpr_timeBase (h : n = 268#10 ∨ n = 269#10) : s.readSpr n = .drawn (s.draw 64) := by
  obtain rfl | rfl := h <;> rfl

theorem writeSpr_xer :
    s.writeSpr 1#10 = some fun v => { s with so := v.getLsbD 31, ov := v.getLsbD 30, ca := v.getLsbD 29 } := rfl

theorem writeSpr_lr : s.writeSpr 8#10 = some fun v => { s with lr := some v } := rfl

theorem writeSpr_ctr : s.writeSpr 9#10 = some fun v => { s with ctr := some v } := rfl

theorem exec_mfspr_of_value {o : Option Word} (h : s.readSpr n = .value o) :
    exec (.mfspr rt n) s = withOperand o fun v => .next (s.setGpr rt v).advance := by
  change execMfspr rt n s = _
  rw [execMfspr, h]

theorem exec_mfspr_of_drawn {v : Word} (h : s.readSpr n = .drawn v) :
    exec (.mfspr rt n) s = .next (s.drawn.setGpr rt v).advance := by
  change execMfspr rt n s = _
  rw [execMfspr, h]

theorem exec_mftb_timeBase (h : n = 268#10 ∨ n = 269#10) :
    exec (.mftb rt n) s = .next (s.drawn.setGpr rt (s.draw 64)).advance :=
  if_pos h

theorem exec_mtspr_of_some {write : Word → State} {v : Word} (hn : s.writeSpr n = some write)
    (hv : s.readGpr rs = some v) : exec (.mtspr rs n) s = .next (write v).advance := by
  change execMtspr rs n s = _
  rw [execMtspr, hn]
  exact withOperand_of_some hv

/-- A move from LR or CTR writes RT when the register is set. -/
theorem movesValue_of_readSpr {o : Option Word} (hn : s.readSpr n = .value o) (v : Word) (hv : o = some v) :
    Completes (.mfspr rt n) s fun t => t.readGpr rt = some v ∧ OnlyGprs [rt] s t :=
  only_gprs ((exec_mfspr_of_value hn).trans (withOperand_of_some hv))

theorem unsetRegister_of_readSpr {o : Option Word} (hn : s.readSpr n = .value o) (hv : o = none) :
    exec (.mfspr rt n) s = .fault .unsetRegister :=
  (exec_mfspr_of_value hn).trans (withOperand_unset hv)

end Moves

/-- The end of a move that takes a draw: RT holds the value, and only RT and PC are written. -/
theorem movesDrawn_of_exec {i : Instr} {rt : Reg} {v : Word} {s : State}
    (hi : exec i s = .next (s.drawn.setGpr rt v).advance) :
    Completes i s fun t => t.readGpr rt = some v ∧ OnlyGprs [rt] s t :=
  ⟨_, hi, State.setGpr_readGpr_self .., gprDrawn_onlyGprs ..⟩

/-- Settles O53: the number decides what is read; LR and CTR may be unset, XER and the time base take a draw. -/
theorem movesFromSpecialRegisters : Obligations.MovesFromSpecialRegisters := by
  intro rt s
  refine ⟨movesValue_of_readSpr rfl, unsetRegister_of_readSpr rfl, movesValue_of_readSpr rfl,
    unsetRegister_of_readSpr rfl, ?xer, fun n hn => ⟨?mfspr, ?mftb⟩⟩
  case xer =>
    obtain ⟨t, ht, hrt, hframe⟩ := movesDrawn_of_exec (exec_mfspr_of_drawn (rt := rt) (s := s) (n := 1#10) rfl)
    exact ⟨t, ht, s.xerValue, hrt, xerValue_getLsbD s (by decide), xerValue_getLsbD s (by decide),
      xerValue_getLsbD s (by decide), fun _ => xerValue_getLsbD_drawn s, hframe⟩
  case mfspr => exact movesDrawn_of_exec (exec_mfspr_of_drawn (readSpr_timeBase hn))
  case mftb => exact movesDrawn_of_exec (exec_mftb_timeBase hn)

/-- Settles O54: the three numbers that mtspr admits, each with its own overwrite. -/
theorem movesToSpecialRegisters : Obligations.MovesToSpecialRegisters := fun _ _ _ hv =>
  ⟨exec_mtspr_of_some writeSpr_xer hv, exec_mtspr_of_some writeSpr_lr hv, exec_mtspr_of_some writeSpr_ctr hv⟩

/-! ### The traps (R531 to R535) -/

/-- The low word of a sign-extended immediate is its own sign extension, so its signed value is the immediate's. -/
theorem signedLow_sext (si : BitVec 16) : signedLow (sext si) = si.toInt := by
  have hword : lowWord (si.signExtend 64) = si.signExtend 32 := by
    apply BitVec.eq_of_getLsbD_eq
    intro j hj
    have hlt : j < 64 := by omega
    simp only [lowWord, BitVec.getLsbD_setWidth, BitVec.getLsbD_signExtend, hj, hlt, decide_true, Bool.true_and]
  rw [signedLow_eq, sext16_eq, hword, BitVec.toInt_signExtend_of_le (by omega)]

section Traps

variable {i : Instr} {toBits : BitVec 5} {double : Bool} {a b : Word} {x y : Int} {u v : Nat} {s : State}

theorem trapCondition_iff (hx : signedOperand double a = x) (hy : signedOperand double b = y)
    (hu : unsignedOperand double a = u) (hv : unsignedOperand double b = v) :
    trapCondition toBits double a b = true ↔ TrapHolds toBits x y u v := by
  simp only [trapCondition, TrapHolds, hx, hy, hu, hv, Bool.or_eq_true, Bool.and_eq_true, decide_eq_true_eq,
    Nat.cast_inj, Nat.cast_lt, or_assoc]

/-- An instruction that ends in the trap test traps or advances by the condition on its operands. -/
theorem trapsOn_of_trapIf {holds : Prop} (hi : exec i s = trapIf toBits double a b s)
    (hcond : trapCondition toBits double a b = true ↔ holds) : TrapsOn i holds s :=
  ⟨fun hnot => hi.trans (if_neg (mt hcond.1 hnot)), fun hholds => hi.trans (if_pos (hcond.2 hholds))⟩

/-- A word trap tests the low words. -/
theorem trapsOn_word (hi : exec i s = trapIf toBits false a b s) :
    TrapsOn i (TrapHolds toBits (signedLow a) (signedLow b) (unsignedLow a) (unsignedLow b)) s :=
  trapsOn_of_trapIf hi (trapCondition_iff (signedOperand_eq false a) (signedOperand_eq false b)
    (unsignedOperand_eq false a) (unsignedOperand_eq false b))

/-- A doubleword trap tests all 64 bits. -/
theorem trapsOn_doubleword (hi : exec i s = trapIf toBits true a b s) :
    TrapsOn i (TrapHolds toBits a.toInt b.toInt a.toNat b.toNat) s :=
  trapsOn_of_trapIf hi (trapCondition_iff (signedOperand_eq true a) (signedOperand_eq true b)
    (unsignedOperand_eq true a) (unsignedOperand_eq true b))

end Traps

/-- Settles O59: each trap is one test of its operands, the immediate sign-extended first. -/
theorem trapInstructions : Obligations.TrapInstructions := by
  intro toBits ra rb si s a b ha
  rw [← sext16_eq]
  refine ⟨fun hb => ⟨?tw, ?td⟩, ?twi, ?tdi⟩
  case tw => exact trapsOn_word (withOperands_of_some ha hb)
  case td => exact trapsOn_doubleword (withOperands_of_some ha hb)
  case twi =>
    rw [← signedLow_sext]
    exact trapsOn_word (withOperand_of_some ha)
  case tdi =>
    rw [← sext_toInt]
    exact trapsOn_doubleword (withOperand_of_some ha)

/-! ### The intrinsics and the words that end a run (R506, R507, R530) -/

theorem intrinsicNoop_eq (s : State) : intrinsicNoop s = .next { s with pc := s.pc + 4#64 } := rfl

theorem intrinsicRefused_eq (op : Intrinsic) (s : State) :
    intrinsicRefused op s = .refused (.unmodelled op.ident) := rfl

theorem raise_eq (f : Fault) : raise f = .fault f := rfl

theorem refuse_eq (r : Refusal) : refuse r = .refused r := rfl

/-- Settles O56: each of the eight is of class no-op, whatever its operands. -/
theorem noOpIntrinsics : Obligations.NoOpIntrinsics := by
  intro i s hi
  obtain rfl | rfl | ⟨l, rfl⟩ | ⟨ra, rb, rfl⟩ | ⟨ra, rb, rfl⟩ | ⟨ra, rb, rfl⟩ | ⟨ra, rb, rfl⟩ | ⟨ra, rb, rfl⟩ := hi
  all_goals exact intrinsicNoop_eq s

/-- Settles O57: each of the nineteen is of class refused, with its own identifier. -/
theorem refusedIntrinsics : Obligations.RefusedIntrinsics := fun _ _ _ s =>
  ⟨intrinsicRefused_eq .dcbz s, intrinsicRefused_eq .tlbie s, intrinsicRefused_eq .tlbiel s,
    intrinsicRefused_eq .tlbia s, intrinsicRefused_eq .tlbsync s, intrinsicRefused_eq .slbmte s,
    intrinsicRefused_eq .slbie s, intrinsicRefused_eq .slbia s, intrinsicRefused_eq .slbmfev s,
    intrinsicRefused_eq .slbmfee s, intrinsicRefused_eq .lwarx s, intrinsicRefused_eq .ldarx s,
    intrinsicRefused_eq .stwcx s, intrinsicRefused_eq .stdcx s, intrinsicRefused_eq .mfmsr s,
    intrinsicRefused_eq .mtmsr s, intrinsicRefused_eq .mtmsrd s, intrinsicRefused_eq .rfid s,
    intrinsicRefused_eq .hrfid s⟩

/-- Settles O58: sc and a reserved word raise, a passthrough word is refused. -/
theorem terminalInstructions : Obligations.TerminalInstructions := fun lev w _ =>
  ⟨raise_eq (.systemCall lev), raise_eq (.illegalInstruction w), refuse_eq .passthrough⟩

end Sys2Proof.Machine
end

section
/-! PROOFS. Why an instruction faults: the faults of `exec`, read off once, instruction by instruction
(60_exceptions.md R601, R604). -/

namespace Sys2Proof.Machine

open Sys2Proof.Safety Sys2Proof.Config

/-- The instruction makes data accesses of the kind: loads read, and stores write (20_memory.md R71). -/
def Accesses (i : Instr) (kind : AccessKind) : Prop :=
  (isLoad i = true ∧ kind = .read) ∨ (isStore i = true ∧ kind = .write)

/-- The ways an instruction can fault: from `s`, the instruction `i` ends in the fault of the index. A constructor's
hypotheses say from which instruction and on which condition the fault comes. -/
inductive FaultEnd (i : Instr) (s : State) : Fault → Prop
  /-- A reserved word (R605). -/
  | reserved (w : InsnWord) (hi : i = .reserved w) : FaultEnd i s (.illegalInstruction w)
  /-- A general register the rule reads (10_state.md R53). -/
  | gprUnset (h : UnsetIn s (gprSources s.params i)) : FaultEnd i s .unsetRegister
  /-- LR, where the rule reads it. -/
  | lrUnset (hi : readsLr i = true) (h : s.lr = none) : FaultEnd i s .unsetRegister
  /-- CTR, where the rule reads it. -/
  | ctrUnset (hi : readsCtr i = true) (h : s.ctr = none) : FaultEnd i s .unsetRegister
  /-- A misaligned load or store (20_memory.md R75). -/
  | misaligned (ea : Word) (n : Nat) (kind : AccessKind) (hi : Accesses i kind)
      (hp : s.params.misalignedData = .fault) (hea : ea.toNat % n ≠ 0) : FaultEnd i s (.misalignedData ea n)
  /-- A trap whose condition holds (46_system.md R531). -/
  | trapped (hi : isTrap i = true) : FaultEnd i s (.trapTaken s.pc)
  /-- The system call (46_system.md R530). -/
  | called (lev : BitVec 7) (hi : i = .sc lev) : FaultEnd i s (.systemCall lev)
  /-- A load or store that is not admitted (20_memory.md R71). -/
  | stuck (ea : Word) (n : Nat) (kind : AccessKind) (hi : Accesses i kind) (ha : s.admits ea n kind = false) :
      FaultEnd i s (.stuck ea n kind)

section Ends

variable {i : Instr} {s : State} {f : Fault} {rs ra rb : Reg}

/-! ### Operands -/

/-- An instruction that reads an operand faults because the operand is unset, or later. -/
theorem faultEnd_of_withOperand {α : Type} {o : Option α} {k : α → Result} (h : withOperand o k = .fault f)
    (hunset : o = none → FaultEnd i s .unsetRegister) (hrest : ∀ a, k a = .fault f → FaultEnd i s f) :
    FaultEnd i s f := by
  obtain ⟨ho, rfl⟩ | ⟨a, -, h⟩ := withOperand_fault h
  · exact hunset ho
  · exact hrest a h

theorem faultEnd_of_operand {k : Word → Result} (h : withOperand (s.readGpr ra) k = .fault f)
    (hsrc : gprSources s.params i = [ra]) (hrest : ∀ a, k a = .fault f → FaultEnd i s f) : FaultEnd i s f :=
  faultEnd_of_withOperand h (fun ha => .gprUnset (hsrc ▸ unsetIn_singleton.2 ha)) hrest

theorem faultEnd_of_operands {k : Word → Word → Result}
    (h : (withOperand (s.readGpr ra) fun a => withOperand (s.readGpr rb) (k a)) = .fault f)
    (hsrc : gprSources s.params i = [ra, rb]) (hrest : ∀ a b, k a b = .fault f → FaultEnd i s f) : FaultEnd i s f :=
  faultEnd_of_withOperand h (fun ha => .gprUnset (hsrc ▸ unsetIn_pair.2 (.inl ha))) fun a h =>
    faultEnd_of_withOperand h (fun hb => .gprUnset (hsrc ▸ unsetIn_pair.2 (.inr hb))) (hrest a)

theorem faultEnd_of_base {k : Word → Result} (h : withOperand (s.readGprOrZero ra) k = .fault f)
    (hsrc : gprSources s.params i = baseSource ra) (hrest : ∀ a, k a = .fault f → FaultEnd i s f) : FaultEnd i s f :=
  faultEnd_of_withOperand h (fun ha => .gprUnset (hsrc ▸ unsetIn_baseSource.2 ha)) hrest

/-! ### Effective addresses: without one, a register of it is unset -/

theorem unsetIn_of_eaD {d : BitVec 16} (h : eaD ra d s = none) : UnsetIn s (baseSource ra) :=
  unsetIn_baseSource.2 (Option.map_eq_none_iff.1 h)

theorem unsetIn_of_eaDS {ds : BitVec 14} (h : eaDS ra ds s = none) : UnsetIn s (baseSource ra) :=
  unsetIn_baseSource.2 (Option.map_eq_none_iff.1 h)

theorem unsetIn_of_eaX (h : eaX ra rb s = none) : UnsetIn s (rb :: baseSource ra) := by
  rw [unsetIn_cons, unsetIn_baseSource]
  cases ha : s.readGprOrZero ra with
  | none => exact .inr rfl
  | some a => exact .inl (by simpa [eaX, ha] using h)

theorem unsetIn_of_eaDUpdate {d : BitVec 16} (h : eaDUpdate ra d s = none) : UnsetIn s [ra] :=
  unsetIn_singleton.2 (Option.map_eq_none_iff.1 h)

theorem unsetIn_of_eaDSUpdate {ds : BitVec 14} (h : eaDSUpdate ra ds s = none) : UnsetIn s [ra] :=
  unsetIn_singleton.2 (Option.map_eq_none_iff.1 h)

theorem unsetIn_of_eaXUpdate (h : eaXUpdate ra rb s = none) : UnsetIn s [ra, rb] := by
  rw [unsetIn_pair]
  cases ha : s.readGpr ra with
  | none => exact .inl rfl
  | some a => exact .inr (by simpa [eaXUpdate, ha] using h)

/-! ### Loads and stores -/

/-- An access is made or faults by its own two checks. -/
theorem faultEnd_of_withAccess {kind : AccessKind} {n : Nat} {ea : Word} {t : State}
    (h : withAccess kind ea n s (.next t) = .fault f) (hi : Accesses i kind) : FaultEnd i s f := by
  obtain ⟨rfl, hp, halign⟩ | ⟨rfl, hadm⟩ | h := withAccess_fault h
  · exact .misaligned ea n kind hi hp halign
  · exact .stuck ea n kind hi hadm
  · cases h

/-- Loads, with update and without: `result` is the state the access leaves, `sources` the registers of the address. -/
theorem faultEnd_of_load {n : Nat} {ea : Option Word} {result : Word → State} {sources : List Reg}
    (h : (withOperand ea fun a => withAccess .read a n s (.next (result a))) = .fault f) (hi : isLoad i = true)
    (hsrc : gprSources s.params i = sources) (hea : ea = none → UnsetIn s sources) : FaultEnd i s f :=
  faultEnd_of_withOperand h (fun hnone => .gprUnset (hsrc ▸ hea hnone)) fun _ h =>
    faultEnd_of_withAccess h (.inl ⟨hi, rfl⟩)

/-- Stores, with update and without. -/
theorem faultEnd_of_store {n : Nat} {ea : Option Word} {result : Word → Word → State} {sources : List Reg}
    (h : (withOperand ea fun a => withOperand (s.readGpr rs) fun v =>
      withAccess .write a n s (.next (result a v))) = .fault f)
    (hi : isStore i = true) (hsrc : gprSources s.params i = rs :: sources) (hea : ea = none → UnsetIn s sources) :
    FaultEnd i s f :=
  faultEnd_of_withOperand h (fun hnone => .gprUnset (hsrc ▸ unsetIn_cons.2 (.inr (hea hnone)))) fun _ h =>
    faultEnd_of_withOperand h (fun hv => .gprUnset (hsrc ▸ unsetIn_cons.2 (.inl hv))) fun _ h =>
      faultEnd_of_withAccess h (.inr ⟨hi, rfl⟩)

/-! ### Traps and special registers -/

theorem faultEnd_of_trapIf {toBits : BitVec 5} {double : Bool} {a b : Word}
    (h : trapIf toBits double a b s = .fault f) (hi : isTrap i = true) : FaultEnd i s f := by
  unfold trapIf at h
  split at h <;> cases h
  exact .trapped hi

/-- Of the numbers mfspr admits, those of LR and CTR read a register that may be unset (46_system.md R502). -/
theorem readSpr_eq_value {spr : BitVec 10} {o : Option Word} (h : s.readSpr spr = .value o) :
    spr = 8#10 ∧ o = s.lr ∨ spr = 9#10 ∧ o = s.ctr := by
  unfold State.readSpr at h
  split_ifs at h with h1 h8 h9 htb
  · cases h
    exact .inl ⟨h8, rfl⟩
  · cases h
    exact .inr ⟨h9, rfl⟩

theorem faultEnd_of_mfspr {rt : Reg} {spr : BitVec 10} (h : execMfspr rt spr s = .fault f) :
    FaultEnd (.mfspr rt spr) s f := by
  unfold execMfspr at h
  split at h
  · cases h
  · cases h
  · rename_i o hread
    refine faultEnd_of_withOperand h (fun hnone => ?_) nofun
    obtain ⟨rfl, rfl⟩ | ⟨rfl, rfl⟩ := readSpr_eq_value hread
    · exact .lrUnset rfl hnone
    · exact .ctrUnset rfl hnone

/-- Only the three numbers that mtspr admits read RS (46_system.md R503). -/
theorem faultEnd_of_mtspr {spr : BitVec 10} (h : execMtspr rs spr s = .fault f) :
    FaultEnd (.mtspr rs spr) s f := by
  by_cases hspr : spr = 1#10 ∨ spr = 8#10 ∨ spr = 9#10
  · have hsrc : gprSources s.params (.mtspr rs spr) = [rs] := if_pos hspr
    obtain rfl | rfl | rfl := hspr <;> exact faultEnd_of_operand h hsrc nofun
  · rw [execMtspr_refused rs (writeSpr_refused (by simpa using hspr) s)] at h
    cases h

/-- Only `RLDCR_SHIFT` = register reads GPR[RB] (45_rotate_shift.md R459). -/
theorem faultEnd_of_rldcr {me : BitVec 6} {rc : Bool} (h : execRldcr rs ra rb me rc s = .fault f) :
    FaultEnd (.rldcr rs ra rb me rc) s f := by
  by_cases hp : s.params.rldcrShift = .register
  · have hsrc : gprSources s.params (.rldcr rs ra rb me rc) = [rs, rb] := if_pos hp
    refine faultEnd_of_withOperand h (fun hrs => .gprUnset (hsrc ▸ unsetIn_pair.2 (.inl hrs))) fun a h =>
      faultEnd_of_withOperand h (fun hn => .gprUnset (hsrc ▸ unsetIn_pair.2 (.inr ?_))) nofun
    simpa [rldcrShift, hp] using hn
  · have hsrc : gprSources s.params (.rldcr rs ra rb me rc) = [rs] := if_neg hp
    refine faultEnd_of_operand h hsrc fun a h => faultEnd_of_withOperand h (fun hn => absurd hn ?_) nofun
    unfold rldcrShift
    split <;> simp_all

/-! ### Branches -/

theorem finishBranch_ne_fault {taken link : Bool} {target : Word} :
    finishBranch taken link target s ≠ .fault f := by
  cases taken <;> nofun

/-- A conditional branch faults on an unset target or an unset CTR (40_branch.md R227). -/
theorem faultEnd_of_bcStep {bo bi : BitVec 5} {link : Bool} {target : Option Word}
    (h : bcStep bo bi link target s = .fault f) (hctr : readsCtr i = true)
    (htarget : target = none → FaultEnd i s .unsetRegister) : FaultEnd i s f := by
  unfold bcStep at h
  split_ifs at h
  · exact faultEnd_of_withOperand h htarget fun _ h => absurd h finishBranch_ne_fault
  · exact faultEnd_of_withOperand h (.ctrUnset hctr) fun _ h =>
      faultEnd_of_withOperand h htarget fun _ h => absurd h finishBranch_ne_fault
  · exact faultEnd_of_withOperand h htarget fun _ h => absurd h finishBranch_ne_fault

theorem faultEnd_of_branchToLR {link : Bool} {bo bi : BitVec 5} (h : branchToLR link bo bi s = .fault f)
    (hlr : readsLr i = true) (hctr : readsCtr i = true) : FaultEnd i s f :=
  faultEnd_of_bcStep h hctr fun hnone => .lrUnset hlr (Option.map_eq_none_iff.1 hnone)

theorem faultEnd_of_branchToCTR {link : Bool} {bo bi : BitVec 5} (h : branchToCTR link bo bi s = .fault f)
    (hctr : readsCtr i = true) : FaultEnd i s f := by
  unfold branchToCTR at h
  split at h
  · cases h
  · exact faultEnd_of_bcStep h hctr fun hnone => .ctrUnset hctr (Option.map_eq_none_iff.1 hnone)

end Ends

/-! ### Every instruction -/

/-- Why an instruction faults: one that does ends in one of the ways of `FaultEnd`. -/
theorem exec_fault {i : Instr} {s : State} {f : Fault} (h : exec i s = .fault f) : FaultEnd i s f := by
  cases i with
  | reserved w =>
    cases h
    exact .reserved w rfl
  | sc lev =>
    cases h
    exact .called lev rfl
  | addi | addis => exact faultEnd_of_base h rfl nofun
  | addic | addicRc | subfic | mulli | cmpi | cmpli | addme | addze | subfme | subfze | neg | andiRc | andisRc | ori
  | oris | xori | xoris | mr | extsb | extsh | extsw | cntlzw | cntlzd | rlwinm | rldicl | rldicr | rldic | srawi
  | sradi | mtcrf => exact faultEnd_of_operand h rfl nofun
  | mtocrf =>
    refine faultEnd_of_operand h rfl fun a h => ?_
    split at h <;> cases h
  | add | addc | adde | subf | subfc | subfe | mulld | mullw | mulhd | mulhdu | mulhw | mulhwu | cmp | cmpl | and | andc
  | or | orc | xor | nand | nor | eqv | slw | srw | sraw | sld | srd | srad | rlwnm | rldcl | rlwimi | rldimi =>
    exact faultEnd_of_operands h rfl nofun
  | divd | divdu =>
    refine faultEnd_of_operands h rfl fun a b h => ?_
    split at h <;> cases h
  | divw | divwu =>
    refine faultEnd_of_operands h rfl fun a b h => ?_
    dsimp only at h
    split at h <;> cases h
  | twi | tdi => exact faultEnd_of_operand h rfl fun _ h => faultEnd_of_trapIf h rfl
  | tw | td => exact faultEnd_of_operands h rfl fun _ _ h => faultEnd_of_trapIf h rfl
  | rldcr => exact faultEnd_of_rldcr h
  | mfspr => exact faultEnd_of_mfspr h
  | mtspr => exact faultEnd_of_mtspr h
  | lbz | lhz | lha | lwz => exact faultEnd_of_load h rfl rfl unsetIn_of_eaD
  | lwa | ld => exact faultEnd_of_load h rfl rfl unsetIn_of_eaDS
  | lbzx | lhzx | lhax | lwzx | lwax | ldx | lhbrx | lwbrx => exact faultEnd_of_load h rfl rfl unsetIn_of_eaX
  | lbzu | lhzu | lhau | lwzu => exact faultEnd_of_load h rfl rfl unsetIn_of_eaDUpdate
  | ldu => exact faultEnd_of_load h rfl rfl unsetIn_of_eaDSUpdate
  | lbzux | lhzux | lhaux | lwzux | lwaux | ldux => exact faultEnd_of_load h rfl rfl unsetIn_of_eaXUpdate
  | stb | sth | stw => exact faultEnd_of_store h rfl rfl unsetIn_of_eaD
  | std => exact faultEnd_of_store h rfl rfl unsetIn_of_eaDS
  | stbx | sthx | stwx | stdx | sthbrx | stwbrx => exact faultEnd_of_store h rfl rfl unsetIn_of_eaX
  | stbu | sthu | stwu => exact faultEnd_of_store h rfl rfl unsetIn_of_eaDUpdate
  | stdu => exact faultEnd_of_store h rfl rfl unsetIn_of_eaDSUpdate
  | stbux | sthux | stwux | stdux => exact faultEnd_of_store h rfl rfl unsetIn_of_eaXUpdate
  | bc | bca | bcl | bcla => exact faultEnd_of_bcStep h rfl nofun
  | bclr | bclrl => exact faultEnd_of_branchToLR h rfl rfl
  | bcctr | bcctrl => exact faultEnd_of_branchToCTR h rfl
  | mfocrf rt fxm =>
    change execMfocrf rt fxm s = .fault f at h
    unfold execMfocrf at h
    split at h <;> cases h
  | mftb rt tbr =>
    change execMftb rt tbr s = .fault f at h
    unfold execMftb at h
    split at h <;> cases h
  | _ => cases h

/-- Settles O12: the ways an instruction can fault, each with the cause that its row of R604 gives. -/
theorem faultsComeFromTheirCauses : Obligations.FaultsComeFromTheirCauses := by
  intro i s f h
  cases exec_fault h with
  | reserved w hi | called lev hi => exact hi
  | gprUnset hr => exact .inl hr
  | lrUnset hi hr => exact .inr (.inl ⟨hi, hr⟩)
  | ctrUnset hi hr => exact .inr (.inr ⟨hi, hr⟩)
  | misaligned ea n kind hi hp halign => exact ⟨hi.imp And.left And.left, hp, halign⟩
  | trapped hi => exact ⟨hi, rfl⟩
  | stuck ea n kind hi ha => exact ⟨ha, hi⟩

end Sys2Proof.Machine
end

section
/-! PROOFS. What stops a step before an instruction runs, in the order of 60_exceptions.md R602, and where a run starts
and ends (70_reset_and_hazards.md R701, R702). -/

namespace Sys2Proof.Machine

open Sys2Proof.Safety Sys2Proof.Claims

section Stops

variable {s : State}

/-! ### The checks of the fetch -/

theorem step_of_fetchStop {f : Fault} (hstop : s.fetchStop = some f) : step s = .fault f := by
  unfold step
  rw [hstop]

theorem step_halted (hexit : s.pc = s.exit) : step s = .fault .halted :=
  step_of_fetchStop (if_pos hexit)

theorem step_misalignedFetch (hexit : s.pc ≠ s.exit) (halign : s.pc.toNat % 4 ≠ 0) :
    step s = .fault (.misalignedFetch s.pc) :=
  step_of_fetchStop (by simp [State.fetchStop, hexit, halign])

theorem step_stuckFetch (hexit : s.pc ≠ s.exit) (halign : s.pc.toNat % 4 = 0)
    (hadm : s.admits s.pc 4 .fetch = false) : step s = .fault (.stuck s.pc 4 .fetch) :=
  step_of_fetchStop (by simp [State.fetchStop, hexit, halign, hadm])

/-- A check of the fetch gives `halted` at the exit address alone. -/
theorem fetchStop_eq_halted : s.fetchStop = some .halted ↔ s.pc = s.exit := by
  unfold State.fetchStop
  split_ifs <;> simp_all

/-! ### The word -/

theorem step_of_failure {c : DecodeFailure} (hstop : s.fetchStop = none) (hdec : decode s.fetchWord = .failure c) :
    step s = .fault (.illegalInstruction s.fetchWord) := by
  unfold step
  rw [hstop, hdec]

/-- A word with one of the three causes fails decode (30_encoding.md R129, R130). -/
theorem decode_fails {w : InsnWord} (h : ReservedPrimary w ∨ ReservedSecondary w ∨ InvalidUpdate w) :
    ∃ c, decode w = .failure c := by
  obtain ⟨hprimary, hsecondary, hinvalid⟩ := decodeFailsForThreeCauses w
  obtain h | h | h := h
  · exact ⟨_, hprimary.2 h⟩
  · exact ⟨_, hsecondary.2 h⟩
  · exact ⟨_, hinvalid.2 h⟩

/-! ### Halt -/

theorem exec_ne_halted {i : Instr} : exec i s ≠ .fault .halted := fun h => nomatch exec_fault h

/-- A step halts at the exit address and nowhere else (60_exceptions.md R601). -/
theorem step_eq_halted : step s = .fault .halted ↔ s.pc = s.exit := by
  refine ⟨fun h => ?_, step_halted⟩
  unfold step at h
  split at h
  · rename_i f hstop
    cases h
    exact fetchStop_eq_halted.1 hstop
  · split at h
    · cases h
    · exact absurd h exec_ne_halted

end Stops

/-- Settles O11: the checks of the fetch in their order, then the decode. -/
theorem stepStopsInOrder : Obligations.StepStopsInOrder := by
  intro s
  refine ⟨step_halted, step_misalignedFetch, step_stuckFetch, step_modifiedCodeFetch, ?_⟩
  intro hexit halign hadm hmark hword
  obtain ⟨c, hdec⟩ := decode_fails hword
  exact step_of_failure (fetchStop_eq_none hexit halign hadm hmark) hdec

section Runs

variable {s t : State} {n : Nat}

/-! ### What a run of one step says of the step -/

theorem faultOutcome_eq_halt {f : Fault} : faultOutcome f s = .halt t ↔ s = t ∧ f = .halted := by
  cases f <;> simp [faultOutcome]

theorem faultOutcome_eq_fault {f g : Fault} : faultOutcome f s = .fault g t ↔ s = t ∧ f = g ∧ g.code ≠ none := by
  have hcode : f = g ∧ g.code ≠ none ↔ f.code ≠ none ∧ f = g :=
    and_comm.trans (and_congr_left fun h => h ▸ Iff.rfl)
  rw [hcode]
  cases f <;> simp [faultOutcome, Fault.code, and_comm]

theorem faultOutcome_ne_refusal {f : Fault} {r : Refusal} : faultOutcome f s ≠ .refusal r t := by
  cases f <;> simp [faultOutcome]

theorem faultOutcome_eq_stuck {f : Fault} {a : Word} {m : Nat} {kind : AccessKind} :
    faultOutcome f s = .stuck a m kind t ↔ s = t ∧ f = .stuck a m kind := by
  cases f with
  | stuck =>
    simp only [faultOutcome, RunOutcome.stuck.injEq, Fault.stuck.injEq]
    tauto
  | _ => simp [faultOutcome]

theorem runFrom_one_eq_halt : runFrom 1 s = .halt t ↔ s = t ∧ step s = .fault .halted := by
  cases h : step s with
  | next u => simp [runFrom_next h]
  | fault f => simp [runFrom_fault h, faultOutcome_eq_halt]
  | refused r => simp [runFrom_refused h]

theorem runFrom_one_eq_fault {f : Fault} : runFrom 1 s = .fault f t ↔ s = t ∧ step s = .fault f ∧ f.code ≠ none := by
  cases h : step s with
  | next u => simp [runFrom_next h]
  | fault g => simp [runFrom_fault h, faultOutcome_eq_fault]
  | refused r => simp [runFrom_refused h]

theorem runFrom_one_eq_refusal {r : Refusal} : runFrom 1 s = .refusal r t ↔ s = t ∧ step s = .refused r := by
  cases h : step s with
  | next u => simp [runFrom_next h]
  | fault f => simp [runFrom_fault h, faultOutcome_ne_refusal]
  | refused q => simp [runFrom_refused h, and_comm]

theorem runFrom_one_eq_stuck {a : Word} {m : Nat} {kind : AccessKind} :
    runFrom 1 s = .stuck a m kind t ↔ s = t ∧ step s = .fault (.stuck a m kind) := by
  cases h : step s with
  | next u => simp [runFrom_next h]
  | fault f => simp [runFrom_fault h, faultOutcome_eq_stuck]
  | refused r => simp [runFrom_refused h]

/-! ### Runs of any length -/

/-- A run still goes on exactly when every step of its bound answered a next state. -/
theorem runFrom_eq_running : runFrom n s = .running t ↔ Steps n s t := by
  induction n generalizing s with
  | zero => simp [Steps]
  | succ n ih =>
    cases h : step s with
    | next u => simp [runFrom_next h, Steps, h, ih]
    | fault f => simp [runFrom_fault h, Steps, h, faultOutcome_ne_running]
    | refused r => simp [runFrom_refused h, Steps, h]

/-- A run has ended exactly when fewer steps than its bound lead to a state whose own step ends it so. -/
theorem runFrom_eq_ended {out : RunOutcome} (hout : ∀ v, out ≠ .running v) :
    runFrom n s = out ↔ ∃ k, k < n ∧ ∃ u, Steps k s u ∧ runFrom 1 u = out := by
  induction n generalizing s with
  | zero => simpa using (hout s).symm
  | succ n ih =>
    simp only [Nat.exists_lt_succ_left, Steps, exists_eq_left']
    cases h : step s with
    | next v => simp [runFrom_next h, ih, (hout v).symm]
    | fault f => simp [runFrom_fault h]
    | refused r => simp [runFrom_refused h]

/-- The end of a run at `t`, by what one step from `t` must be for it. -/
theorem runFrom_eq_endedAt {out : RunOutcome} {P : State → Prop} (hout : ∀ v, out ≠ .running v)
    (hone : ∀ u, runFrom 1 u = out ↔ u = t ∧ P u) :
    runFrom n s = out ↔ ∃ k, k < n ∧ Steps k s t ∧ P t := by
  rw [runFrom_eq_ended hout]
  simp only [hone, and_left_comm, exists_eq_left]

end Runs

/-- Settles O60: a run ends as its last step does, and a step halts where PC is the exit address. -/
theorem runEndsAtFirstStop : Obligations.RunEndsAtFirstStop := fun _ _ _ =>
  ⟨runFrom_eq_running,
    runFrom_eq_endedAt (by simp) fun _ => runFrom_one_eq_halt.trans (and_congr_right fun _ => step_eq_halted),
    fun _ => runFrom_eq_endedAt (by simp) fun _ => runFrom_one_eq_fault,
    fun _ => runFrom_eq_endedAt (by simp) fun _ => runFrom_one_eq_refusal,
    fun _ _ _ => runFrom_eq_endedAt (by simp) fun _ => runFrom_one_eq_stuck⟩

/-! ### The start -/

/-- The start state reads a general register from the launch record. -/
theorem Launch.start_readGpr (l : Launch) (p : Config.Params) (r : Reg) :
    (l.start p).readGpr r = l.gpr[r.toNat]'r.isLt := rfl

/-- Settles O16: the start state is the launch record, member by member, with the written-bytes set empty. -/
theorem launchGivesStart : Obligations.LaunchGivesStart := fun l p =>
  ⟨l.start_readGpr p, rfl, rfl, rfl, rfl, rfl, rfl, rfl, rfl, rfl, rfl, rfl⟩

end Sys2Proof.Machine
end
